-- ==== Sys2Proof/Word.lean ====
section
/-! DEFINITION. The machine's words: bytes, 16-bit data numbers and values, 32-bit times, and the ASCII sets of
00_scope.md R10 that the other files name. -/

namespace Sys2Proof

/-- One byte, bit 7 its most significant bit (00_scope.md R9). -/
abbrev Byte := BitVec 8

/-- A 16-bit quantity: a data number, a data value, a floor (30_encoding.md R96, R97, R101). -/
abbrev W16 := BitVec 16

/-- A 32-bit quantity: a time, a scan position (10_state.md R22, R41). -/
abbrev W32 := BitVec 32

/-- The control byte that starts a CommandFrame (00_scope.md R10). -/
abbrev ENQ : Byte := 0x05
/-- The control byte of a positive AckFrame (00_scope.md R10). -/
abbrev ACK : Byte := 0x06
/-- The control byte of a negative AckFrame (00_scope.md R10). -/
abbrev NAK : Byte := 0x15
/-- The one command letter, `'W'` (00_scope.md R10, 30_encoding.md R95). -/
abbrev CMD_W : Byte := 0x57

/-- The set `DIGIT` (00_scope.md R10). -/
def isDigit (b : Byte) : Bool := 0x30 ≤ b && b ≤ 0x39

/-- The set `HEX` = digits, upper-case and lower-case hex letters (00_scope.md R10). -/
def isHex (b : Byte) : Bool :=
  isDigit b || (0x41 ≤ b && b ≤ 0x46) || (0x61 ≤ b && b ≤ 0x66)

/-- A station id is kept as its four characters and never converted to a number (30_encoding.md R94). -/
structure Station where
  /-- The character sent first, the thousands digit (20_memory.md R70). -/
  c0 : Byte
  /-- The second character. -/
  c1 : Byte
  /-- The third character. -/
  c2 : Byte
  /-- The fourth character. -/
  c3 : Byte
deriving DecidableEq, Repr

/-- The four characters in the order they stand in a frame (30_encoding.md R91, R92). -/
def Station.bytes (s : Station) : List Byte := [s.c0, s.c1, s.c2, s.c3]

/-- All four characters are decimal digits (30_encoding.md R94). -/
def Station.isDigits (s : Station) : Bool :=
  isDigit s.c0 && isDigit s.c1 && isDigit s.c2 && isDigit s.c3

end Sys2Proof
end

