-- ==== Sys2Proof/Config.lean ====
section
/-! DEFINITION. The configuration record of 00_scope.md R7 and the one value that the spec leaves to the implementation
as a function, `RSP_VALUE`. The record stands in State as read-only state (10_state.md R38); its constraints are
`Config.ok` in WellFormed.lean. -/

namespace Sys2Proof

/-- `ROLE` (00_scope.md R7, 60_exceptions.md R320). -/
inductive Role where
  /-- The elevator side: emits reports, consumes commands. -/
  | dataSource
  /-- The supervising side: emits commands, consumes reports. -/
  | controller
deriving DecidableEq, Repr

/-- `PARITY` (00_scope.md R7, 42_serial_phy.md R150). -/
inductive Parity where
  | even
  | off
deriving DecidableEq, Repr

/-- The five fields of ElevatorStatus as one value: what `RSP_VALUE` is applied to (10_state.md R23, 00_scope.md R7). -/
structure ElevatorStatus where
  currentFloor : W16
  targetFloor : Option W16
  loadWeight : W16
  moving : Bool
  doorStatus : BitVec 2
deriving DecidableEq, Repr

/-- FREE VALUE (log 3). `RSP_VALUE` as an arbitrary function of the request's data number, its value and the status:
a parameter that the spec leaves to the implementation (00_scope.md R7). It has no body, so nothing can be proved of
its values. -/
opaque Config.rspFn : W16 → W16 → ElevatorStatus → W16

/-- How `RSP_VALUE` is given: the constant function of the spec's default, or an arbitrary one (log 3). -/
inductive RspValue where
  /-- The constant function `v`; the default is the constant 0x0000 (00_scope.md R7). -/
  | const (v : W16)
  /-- Any function: `Config.rspFn`. -/
  | any
deriving DecidableEq, Repr

/-- The configuration record (00_scope.md R7), constant from reset to reset. Durations and counts are natural numbers,
kept inside their stated widths by `Config.ok` (R8). -/
structure Config where
  /-- `OWN_ID`. -/
  ownId : Station
  /-- `PEER_ID`. -/
  peerId : Station
  /-- `ROLE`. -/
  role : Role
  /-- `BAUD`; no rule of the model reads it (42_serial_phy.md R159). -/
  baud : Nat
  /-- `PARITY`. -/
  parity : Parity
  /-- `TICK_HZ`; no rule of the model reads it (60_exceptions.md R330). -/
  tickHz : Nat
  /-- `CLK_HZ` (10_state.md R50); not visible to any rule (93_implementation_defined.md I9). -/
  clkHz : Nat
  /-- `ACK_TIMEOUT`, ticks. -/
  ackTimeout : Nat
  /-- `MAX_RETRIES`. -/
  maxRetries : Nat
  /-- `DEDUP_WINDOW`, ticks. -/
  dedupWindow : Nat
  /-- `BACKOFF_MIN`, ticks. -/
  backoffMin : Nat
  /-- `BACKOFF_MAX`, ticks. -/
  backoffMax : Nat
  /-- `FAIL_LIMIT`. -/
  failLimit : Nat
  /-- `IDLE_TIMEOUT`, ticks, or none. -/
  idleTimeout : Option Nat
  /-- `MAX_RECONNECT`, or none. -/
  maxReconnect : Option Nat
  /-- `ARRIVE_ON_EQUAL`. -/
  arriveOnEqual : Bool
  /-- `SCAN_NAK`. -/
  scanNak : Bool
  /-- `HANDSHAKE_EN`. -/
  handshakeEn : Bool
  /-- `DN_PING`. -/
  dnPing : W16
  /-- `DN_PONG`. -/
  dnPong : W16
  /-- `DN_STATUS_REQ`. -/
  dnStatusReq : W16
  /-- `DN_STATUS_RSP`. -/
  dnStatusRsp : W16
  /-- `DN_CONTROL_REQ`. -/
  dnControlReq : W16
  /-- `DN_CONTROL_ACK`. -/
  dnControlAck : W16
  /-- `DN_FLOOR_CMD`. -/
  dnFloorCmd : W16
  /-- `DN_DOOR_CMD`. -/
  dnDoorCmd : W16
  /-- `RSP_VALUE`. -/
  rspValue : RspValue
  /-- `GROUND_FLOOR`. -/
  groundFloor : W16
  /-- `RXBUF_SIZE`, bytes. -/
  rxbufSize : Nat
  /-- `FQ_DEPTH`, frames. -/
  fqDepth : Nat
  /-- `TXQ_DEPTH`, frames. -/
  txqDepth : Nat
deriving DecidableEq, Repr

/-- The value of `RSP_VALUE` for one request (00_scope.md R7, 45_session_rx.md R245). -/
def Config.response (c : Config) (dn value : W16) (e : ElevatorStatus) : W16 :=
  match c.rspValue with
  | .const v => v
  | .any => Config.rspFn dn value e

/-- The defaults of 00_scope.md R7; for the OPEN parameters, which have no default, the values of the spec's test
vectors (95_test_vectors.md sections 0 and 11). DESIGN CHOICE (log 1). -/
def Config.default : Config where
  ownId := ⟨0x30, 0x30, 0x30, 0x31⟩
  peerId := ⟨0x30, 0x30, 0x30, 0x32⟩
  role := .controller
  baud := 9600
  parity := .even
  tickHz := 1000
  clkHz := 1000000
  ackTimeout := 3000
  maxRetries := 8
  dedupWindow := 500
  backoffMin := 2000
  backoffMax := 30000
  failLimit := 3
  idleTimeout := some 60000
  maxReconnect := none
  arriveOnEqual := true
  scanNak := false
  handshakeEn := false
  dnPing := 0x0020
  dnPong := 0x0021
  dnStatusReq := 0x0022
  dnStatusRsp := 0x0023
  dnControlReq := 0x0024
  dnControlAck := 0x0025
  dnFloorCmd := 0x0030
  dnDoorCmd := 0x0031
  rspValue := .const 0x0000
  groundFloor := 0x0001
  rxbufSize := 256
  fqDepth := 8
  txqDepth := 4

/-- The same record with every row of the opcode table in force: the handshake rows need `HANDSHAKE_EN` and a NAK
reaches the session only with `SCAN_NAK` (30_encoding.md R107, 45_session_rx.md R223). Only the host interface's
`decodeTableWord` and `withFetchWord` use it (log 4). -/
def Config.allRows : Config := { Config.default with handshakeEn := true, scanNak := true }

end Sys2Proof
end

