-- ==== Sys2Proof/Syntax.lean ====
section
/-! DEFINITION. The instruction set of 00_scope.md R1: the frames on the wire and the host operations, one constructor
for each row of the opcode table; and the decoded frame that the frame queue holds (20_memory.md R65). -/

namespace Sys2Proof

/-- The control byte of an AckFrame (30_encoding.md R92). -/
inductive AckKind where
  | ack
  | nak
deriving DecidableEq, Repr

/-- A decoded frame, the element of `fq` (20_memory.md R65). -/
inductive Frame where
  /-- A CommandFrame; `station` is the destination. -/
  | cmd (station : Station) (dn value : W16)
  /-- An AckFrame; `station` is the sender. -/
  | ackFrame (ctrl : AckKind) (station : Station)
deriving DecidableEq, Repr

/-- One constructor per row of the opcode table. `st` is the frame's station field; a handshake row's data number is
the configuration's (30_encoding.md R102). -/
inductive Instr where
  /-- `CUR_FLOOR` (45_session_rx.md R229). -/
  | curFloor (st : Station) (value : W16)
  /-- `TGT_FLOOR` with a value other than 0x0000 (45_session_rx.md R230, R232). -/
  | tgtFloor (st : Station) (value : W16)
  /-- `TGT_NONE`: `TGT_FLOOR` with value 0x0000 (45_session_rx.md R231). -/
  | tgtNone (st : Station)
  /-- `LOAD` (45_session_rx.md R233). -/
  | load (st : Station) (value : W16)
  /-- `FLOOR_SET` (45_session_rx.md R234). -/
  | floorSet (st : Station) (value : W16)
  /-- `DOOR_CTL` with a value that no more specific row has, so above 0x0002 (30_encoding.md R105, R107). -/
  | doorCtl (st : Station) (value : W16)
  /-- `DOOR_STOP`: `DOOR_CTL` with value 0x0000 (30_encoding.md R109). -/
  | doorStop (st : Station)
  /-- `DOOR_OPEN`: `DOOR_CTL` with value 0x0001 (30_encoding.md R109). -/
  | doorOpen (st : Station)
  /-- `DOOR_CLOSE`: `DOOR_CTL` with value 0x0002 (30_encoding.md R109). -/
  | doorClose (st : Station)
  /-- `PING` (45_session_rx.md R241). -/
  | ping (st : Station) (value : W16)
  /-- `PONG` (45_session_rx.md R244). -/
  | pong (st : Station) (value : W16)
  /-- `STATUS_REQ` (45_session_rx.md R242). -/
  | statusReq (st : Station) (value : W16)
  /-- `STATUS_RSP` (45_session_rx.md R244). -/
  | statusRsp (st : Station) (value : W16)
  /-- `CONTROL_REQ` (45_session_rx.md R243). -/
  | controlReq (st : Station) (value : W16)
  /-- `CONTROL_ACK` (45_session_rx.md R244). -/
  | controlAck (st : Station) (value : W16)
  /-- `FLOOR_CMD` (45_session_rx.md R246). -/
  | floorCmd (st : Station) (value : W16)
  /-- `DOOR_CMD` (45_session_rx.md R247). -/
  | doorCmd (st : Station) (value : W16)
  /-- `UNKNOWN_DN`: a data number in no registry in force (45_session_rx.md R236). -/
  | unknownDn (st : Station) (dn value : W16)
  /-- `ACK` (45_session_rx.md R222). -/
  | ack (st : Station)
  /-- `NAK` (45_session_rx.md R223). -/
  | nak (st : Station)
  /-- `NOP` (46_session_tx.md R261). -/
  | nop
  /-- `START` (46_session_tx.md R262). -/
  | start
  /-- `STOP` (46_session_tx.md R263). -/
  | stop
  /-- `ISSUE` (46_session_tx.md R264). -/
  | issue (dn value : W16)
  /-- `SNAPSHOT` (46_session_tx.md R265). -/
  | snapshot
deriving DecidableEq, Repr

/-- The five host operations; every other instruction is a frame (30_encoding.md R110). -/
def Instr.isHostOp : Instr → Bool
  | .nop | .start | .stop | .issue _ _ | .snapshot => true
  | .curFloor _ _ | .tgtFloor _ _ | .tgtNone _ | .load _ _ | .floorSet _ _ | .doorCtl _ _ | .doorStop _
  | .doorOpen _ | .doorClose _ | .ping _ _ | .pong _ _ | .statusReq _ _ | .statusRsp _ _ | .controlReq _ _
  | .controlAck _ _ | .floorCmd _ _ | .doorCmd _ _ | .unknownDn _ _ _ | .ack _ | .nak _ => false

/-- The eight rows of the handshake sub-protocol (30_encoding.md R102). -/
def Instr.isHandshake : Instr → Bool
  | .ping _ _ | .pong _ _ | .statusReq _ _ | .statusRsp _ _ | .controlReq _ _ | .controlAck _ _ | .floorCmd _ _
  | .doorCmd _ _ => true
  | .curFloor _ _ | .tgtFloor _ _ | .tgtNone _ | .load _ _ | .floorSet _ _ | .doorCtl _ _ | .doorStop _
  | .doorOpen _ | .doorClose _ | .unknownDn _ _ _ | .ack _ | .nak _ | .nop | .start | .stop | .issue _ _
  | .snapshot => false

end Sys2Proof
end

