-- ==== Sys2Proof/WellFormed.lean ====
section
/-! DEFINITION. The checks on the configuration record (00_scope.md R7, R8), on frames and on instructions. -/

namespace Sys2Proof

/-- The five data numbers of the base registry (30_encoding.md R99). -/
def baseDns : List W16 := [0x0001, 0x0002, 0x0003, 0x0010, 0x0011]

/-- The eight handshake data numbers of a configuration, in the order of 00_scope.md R7. -/
def Config.handshakeDns (c : Config) : List W16 :=
  [c.dnPing, c.dnPong, c.dnStatusReq, c.dnStatusRsp, c.dnControlReq, c.dnControlAck, c.dnFloorCmd, c.dnDoorCmd]

/-- The handshake data numbers are pairwise distinct, in 0x0000..0x0031 and none of the base registry
(00_scope.md R7, 90_conflicts.md C8). -/
def Config.handshakeDnsOk (c : Config) : Bool :=
  decide c.handshakeDns.Nodup && c.handshakeDns.all (fun d => d ≤ 0x0031 && !baseDns.contains d)

/-- An optional duration below 2^31 (00_scope.md R8). -/
def optionBelow : Option Nat → Nat → Bool
  | none, _ => true
  | some t, b => t < b

/-- An optional count of at least one (00_scope.md R7). -/
def optionPositive : Option Nat → Bool
  | none => true
  | some m => 1 ≤ m

/-- The constraints on the parameters, a premise of every claim (00_scope.md R7 and R8; 10_state.md R50). -/
def Config.ok (c : Config) : Bool :=
  c.ownId.isDigits && c.peerId.isDigits && c.ownId != c.peerId
    && c.ackTimeout < 2 ^ 31 && c.dedupWindow < 2 ^ 31 && c.backoffMax < 2 ^ 31 && optionBelow c.idleTimeout (2 ^ 31)
    && c.backoffMin ≤ c.backoffMax && 1 ≤ c.backoffMin
    && c.maxRetries < 255 && 1 ≤ c.failLimit && c.failLimit < 256 && optionPositive c.maxReconnect
    && c.handshakeDnsOk
    && 32 ≤ c.rxbufSize && 1 ≤ c.fqDepth && 2 ≤ c.txqDepth
    && 1 ≤ c.tickHz && 16 * c.baud ≤ c.clkHz && c.clkHz % c.tickHz == 0

/-- A data number of a registry in force: the base registry, and the handshake numbers when `HANDSHAKE_EN`
(30_encoding.md R104). -/
def Config.knownDn (c : Config) (dn : W16) : Bool :=
  baseDns.contains dn || (c.handshakeEn && c.handshakeDns.contains dn)

/-- A frame as `DECODE` gives it: its station is four digits (20_memory.md R65). -/
def Frame.wf : Frame → Bool
  | .cmd st _ _ => st.isDigits
  | .ackFrame _ st => st.isDigits

/-- An instruction that some word means under a configuration: digits in the station field; the more specific row
where two match (30_encoding.md R107); a handshake row only when `HANDSHAKE_EN`; `UNKNOWN_DN` only for a data number
in no registry in force. -/
def Instr.wf (c : Config) : Instr → Bool
  | .curFloor st _ => st.isDigits
  | .tgtFloor st v => st.isDigits && v != 0x0000
  | .tgtNone st => st.isDigits
  | .load st _ => st.isDigits
  | .floorSet st _ => st.isDigits
  | .doorCtl st v => st.isDigits && 0x0002 < v
  | .doorStop st => st.isDigits
  | .doorOpen st => st.isDigits
  | .doorClose st => st.isDigits
  | .ping st _ => st.isDigits && c.handshakeEn
  | .pong st _ => st.isDigits && c.handshakeEn
  | .statusReq st _ => st.isDigits && c.handshakeEn
  | .statusRsp st _ => st.isDigits && c.handshakeEn
  | .controlReq st _ => st.isDigits && c.handshakeEn
  | .controlAck st _ => st.isDigits && c.handshakeEn
  | .floorCmd st _ => st.isDigits && c.handshakeEn
  | .doorCmd st _ => st.isDigits && c.handshakeEn
  | .unknownDn st dn _ => st.isDigits && !c.knownDn dn
  | .ack st => st.isDigits
  | .nak st => st.isDigits
  | .nop => true
  | .start => true
  | .stop => true
  | .issue _ _ => true
  | .snapshot => true

end Sys2Proof
end

