-- ==== Sys2Proof/Decode.lean ====
section
/-! DEFINITION. ChecksumCodec (40_checksum.md), FrameCodec (41_frame_codec.md), the dispatch of a frame to its row
(45_session_rx.md R228, 30_encoding.md R107), the host operation word (30_encoding.md R110), and the encoder. -/

namespace Sys2Proof

/-! ## Hexadecimal characters (00_scope.md R10) -/

/-- `hexval`; meant for `c` in `HEX` only. -/
def hexval (c : Byte) : BitVec 4 :=
  if isDigit c then (c - 0x30).setWidth 4
  else if c ≤ 0x46 then (c - 0x37).setWidth 4
  else (c - 0x57).setWidth 4

/-- `hexchar`: always upper case. -/
def hexchar (n : BitVec 4) : Byte :=
  if n ≤ 9 then 0x30 + n.setWidth 8 else 0x37 + n.setWidth 8

/-- `hex2`: high nibble first. -/
def hex2 (v : Byte) : List Byte := [hexchar (v.extractLsb' 4 4), hexchar (v.extractLsb' 0 4)]

/-- `hex4`: most significant nibble first. -/
def hex4 (v : W16) : List Byte :=
  [hexchar (v.extractLsb' 12 4), hexchar (v.extractLsb' 8 4), hexchar (v.extractLsb' 4 4), hexchar (v.extractLsb' 0 4)]

/-- `unhex2`. -/
def unhex2 (a b : Byte) : Byte := hexval a ++ hexval b

/-- `unhex4`. -/
def unhex4 (a b c d : Byte) : W16 := hexval a ++ hexval b ++ hexval c ++ hexval d

/-! ## ChecksumCodec (40_checksum.md) -/

/-- The 16-bit accumulator of R120: the sum of the bytes modulo 2^16. -/
def ckAcc (B : List Byte) : W16 := B.foldl (fun acc b => acc + b.setWidth 16) 0

/-- `CK.COMPUTE` as a value (R120): the accumulator's two bytes added, the carry dropped. -/
def ckCompute (B : List Byte) : Byte := (ckAcc B).extractLsb' 0 8 + (ckAcc B).extractLsb' 8 8

/-- `CK.VERIFY` (R121); a claimed text that is not two hex characters never verifies. -/
def ckVerify (B claimed : List Byte) : Bool :=
  match claimed with
  | [a, b] => isHex a && isHex b && unhex2 a b == ckCompute B
  | _ => false

/-! ## FrameCodec (41_frame_codec.md) -/

/-- The failures of `DECODE` (R132). A mismatch carries what 60_exceptions.md R306 records of it. -/
inductive DecodeError where
  | malformedFrame
  | malformedCommand
  | checksumMismatch (claimed computed : Byte)
  | malformedAck
deriving DecidableEq, Repr

/-- The thirteen bytes between the control byte and the checksum (R130). -/
def cmdBody (st : Station) (dn value : W16) : List Byte := st.bytes ++ CMD_W :: (hex4 dn ++ hex4 value)

/-- `ENCODE_CMD` (R130). -/
def encodeCmd (st : Station) (dn value : W16) : List Byte :=
  ENQ :: (cmdBody st dn value ++ hex2 (ckCompute (cmdBody st dn value)))

/-- The control byte of an AckFrame (30_encoding.md R92). -/
def AckKind.byte : AckKind → Byte
  | .ack => ACK
  | .nak => NAK

/-- `ENCODE_ACK` (R131). -/
def encodeAck (k : AckKind) (st : Station) : List Byte := k.byte :: st.bytes

/-- `DECODE_CMD` (R133), for a string whose first byte is `ENQ`: the checks in the rule's order. -/
def decodeCmd (B : List Byte) : Except DecodeError Frame :=
  match B with
  | [_, s0, s1, s2, s3, w, n0, n1, n2, n3, v0, v1, v2, v3, k0, k1] =>
    if !(isDigit s0 && isDigit s1 && isDigit s2 && isDigit s3) then .error .malformedCommand
    else if w != CMD_W then .error .malformedCommand
    else if !([n0, n1, n2, n3, v0, v1, v2, v3, k0, k1].all isHex) then .error .malformedCommand
    else
      let computed := ckCompute [s0, s1, s2, s3, w, n0, n1, n2, n3, v0, v1, v2, v3]
      if unhex2 k0 k1 != computed then .error (.checksumMismatch (unhex2 k0 k1) computed)
      else .ok (.cmd ⟨s0, s1, s2, s3⟩ (unhex4 n0 n1 n2 n3) (unhex4 v0 v1 v2 v3))
  | _ => .error .malformedCommand

/-- `DECODE_ACK` (R134), for a string whose first byte is the control byte of `k`. -/
def decodeAck (k : AckKind) (B : List Byte) : Except DecodeError Frame :=
  match B with
  | [_, s0, s1, s2, s3] =>
    if !(isDigit s0 && isDigit s1 && isDigit s2 && isDigit s3) then .error .malformedAck
    else .ok (.ackFrame k ⟨s0, s1, s2, s3⟩)
  | _ => .error .malformedAck

/-- `DECODE` (R132): total on every byte string (R138). -/
def decodeFrame (B : List Byte) : Except DecodeError Frame :=
  match B with
  | [] => .error .malformedFrame
  | b :: _ =>
    if b == ENQ then decodeCmd B
    else if b == ACK then decodeAck .ack B
    else if b == NAK then decodeAck .nak B
    else .error .malformedFrame

/-! ## From a frame to its row (45_session_rx.md R228) -/

/-- The row of a CommandFrame: the first of R228's rows that applies, the more specific row of the opcode table where
two match (30_encoding.md R107), `UNKNOWN_DN` where none does. -/
def classifyCmd (c : Config) (st : Station) (dn value : W16) : Instr :=
  if dn == 0x0001 then .curFloor st value
  else if dn == 0x0002 then (if value == 0x0000 then .tgtNone st else .tgtFloor st value)
  else if dn == 0x0003 then .load st value
  else if dn == 0x0010 then .floorSet st value
  else if dn == 0x0011 then
    (if value == 0x0000 then .doorStop st
     else if value == 0x0001 then .doorOpen st
     else if value == 0x0002 then .doorClose st
     else .doorCtl st value)
  else if !c.handshakeEn then .unknownDn st dn value
  else if dn == c.dnPing then .ping st value
  else if dn == c.dnStatusReq then .statusReq st value
  else if dn == c.dnControlReq then .controlReq st value
  else if dn == c.dnPong then .pong st value
  else if dn == c.dnStatusRsp then .statusRsp st value
  else if dn == c.dnControlAck then .controlAck st value
  else if dn == c.dnFloorCmd then .floorCmd st value
  else if dn == c.dnDoorCmd then .doorCmd st value
  else .unknownDn st dn value

/-- The instruction a decoded frame is (45_session_rx.md R221, R228). -/
def classify (c : Config) : Frame → Instr
  | .cmd st dn value => classifyCmd c st dn value
  | .ackFrame .ack st => .ack st
  | .ackFrame .nak st => .nak st

/-- A frame's bytes to its instruction, or the name of the failure. -/
def decode (c : Config) (B : List Byte) : Except DecodeError Instr :=
  match decodeFrame B with
  | .ok f => .ok (classify c f)
  | .error e => .error e

/-! ## The host operation word (30_encoding.md R110) -/

/-- A word whose operation code is reserved; the host port refuses it with `BadRequest` (60_exceptions.md R317). -/
inductive HopError where
  | reservedOp (op : BitVec 4)
deriving DecidableEq, Repr

/-- `hc_op ‖ hc_dn ‖ hc_value` (30_encoding.md R107). -/
def hopWord (op : BitVec 4) (dn value : W16) : BitVec 36 := op ++ dn ++ value

/-- The operation of a host word; `hc_dn` and `hc_value` are ignored by every operation but `ISSUE`. -/
def decodeHop (w : BitVec 36) : Except HopError Instr :=
  let op := w.extractLsb' 32 4
  if op == 0 then .ok .nop
  else if op == 1 then .ok .start
  else if op == 2 then .ok .stop
  else if op == 3 then .ok (.issue (w.extractLsb' 16 16) (w.extractLsb' 0 16))
  else if op == 4 then .ok .snapshot
  else .error (.reservedOp op)

/-! ## The encoder -/

/-- What an instruction is written as: a frame's bytes, first on the wire first, or a host operation word. -/
inductive Code where
  | frame (bytes : List Byte)
  | hop (w : BitVec 36)
deriving DecidableEq, Repr

/-- The words of a well-formed instruction (30_encoding.md R91, R92, R99, R102, R109, R110). -/
def encode (c : Config) : Instr → Code
  | .curFloor st v => .frame (encodeCmd st 0x0001 v)
  | .tgtFloor st v => .frame (encodeCmd st 0x0002 v)
  | .tgtNone st => .frame (encodeCmd st 0x0002 0x0000)
  | .load st v => .frame (encodeCmd st 0x0003 v)
  | .floorSet st v => .frame (encodeCmd st 0x0010 v)
  | .doorCtl st v => .frame (encodeCmd st 0x0011 v)
  | .doorStop st => .frame (encodeCmd st 0x0011 0x0000)
  | .doorOpen st => .frame (encodeCmd st 0x0011 0x0001)
  | .doorClose st => .frame (encodeCmd st 0x0011 0x0002)
  | .ping st v => .frame (encodeCmd st c.dnPing v)
  | .pong st v => .frame (encodeCmd st c.dnPong v)
  | .statusReq st v => .frame (encodeCmd st c.dnStatusReq v)
  | .statusRsp st v => .frame (encodeCmd st c.dnStatusRsp v)
  | .controlReq st v => .frame (encodeCmd st c.dnControlReq v)
  | .controlAck st v => .frame (encodeCmd st c.dnControlAck v)
  | .floorCmd st v => .frame (encodeCmd st c.dnFloorCmd v)
  | .doorCmd st v => .frame (encodeCmd st c.dnDoorCmd v)
  | .unknownDn st dn v => .frame (encodeCmd st dn v)
  | .ack st => .frame (encodeAck .ack st)
  | .nak st => .frame (encodeAck .nak st)
  | .nop => .hop (hopWord 0 0 0)
  | .start => .hop (hopWord 1 0 0)
  | .stop => .hop (hopWord 2 0 0)
  | .issue dn v => .hop (hopWord 3 dn v)
  | .snapshot => .hop (hopWord 4 0 0)

/-- Either decoder on the code it is for. -/
def decodeCode (c : Config) : Code → Option Instr
  | .frame B => (decode c B).toOption
  | .hop w => (decodeHop w).toOption

/-! ## Words numbered as the opcode table numbers them (30_encoding.md R107) -/

/-- The `n` bytes of a number, the most significant first: byte 0 of a frame is the table's most significant. -/
def bytesOfWord : Nat → Nat → List Byte
  | 0, _ => []
  | n + 1, w => BitVec.ofNat 8 (w / 2 ^ (8 * n)) :: bytesOfWord n w

/-- The code of a table word of `nbits` bits. A host word has 36 bits; in whole bytes it has 40, as an AckFrame has,
and is told from it by its first byte, which is an operation code of a row (log 4). -/
def codeOfTableWord (nbits w : Nat) : Code :=
  if nbits == 36 || (nbits == 40 && w / 2 ^ 32 ≤ 4) then .hop (BitVec.ofNat 36 w)
  else .frame (bytesOfWord (nbits / 8) w)

/-- The instruction of a table word, every row of the table in force (log 4). -/
def decodeTableWord (nbits w : Nat) : Option Instr := decodeCode Config.allRows (codeOfTableWord nbits w)

end Sys2Proof
end

