-- ==== Sys2Proof/Machine/State.lean ====
section
/-! DEFINITION. The machine's state as plain data (10_state.md), its outputs (60_exceptions.md R302), the ways a step
could stop, and reset (70_reset_and_hazards.md R341). The fields of section MODEL are the model's own. -/

namespace Sys2Proof.Machine

/-! ## Registers with named values -/

/-- `link_state` (10_state.md R33, 43_link_scanner.md R170). -/
inductive LinkState where
  | disconnected
  | connecting
  | connected
  | degraded
deriving DecidableEq, Repr

/-- `sess_state` (10_state.md R37). -/
inductive SessState where
  | idle
  | handshaking
  | linked
  | controlling
deriving DecidableEq, Repr

/-- The cause of a `LinkDown` (43_link_scanner.md R182). -/
inductive LinkCause where
  | device
  | failLimit
  | idle
deriving DecidableEq, Repr

/-- One entry of the dedup table: the last value and timestamp of a data number (10_state.md R39). -/
structure DedupEntry where
  dn : W16
  value : W16
  ts : W32
deriving DecidableEq, Repr

/-! ## Outputs -/

/-- The fifteen errors with the information each records (60_exceptions.md R301). -/
inductive Error where
  /-- Code 1. -/
  | malformedFrame (b : Byte) (pc : W32)
  /-- Code 2. -/
  | malformedCommand (pc : W32)
  /-- Code 3. -/
  | malformedAck (pc : W32)
  /-- Code 4. -/
  | checksumMismatch (pc : W32) (claimed computed : Byte)
  /-- Code 5. -/
  | ackTimeout (dn : W16) (retry : BitVec 8)
  /-- Code 6, surfaced. -/
  | retryExhausted (dn value : W16)
  /-- Code 7. -/
  | linkIOError (cause : LinkCause)
  /-- Code 8, a refusal. -/
  | linkNotReady
  /-- Code 9, surfaced. -/
  | maxReconnectExceeded (attempts : W16)
  /-- Code 10, a refusal. -/
  | busy
  /-- Code 11, a refusal. -/
  | roleViolation
  /-- Code 12. -/
  | rxCharError (b : Byte) (perr ferr : Bool)
  /-- Code 13. -/
  | rxOverrun (b : Byte)
  /-- Code 14. -/
  | idleTimeout (ticks : W32)
  /-- Code 15, a refusal. -/
  | badRequest
deriving DecidableEq, Repr

/-- The field an `ev_changed` names (60_exceptions.md R302). -/
inductive StatusField where
  | currentFloor
  | targetFloor
  | loadWeight
  | doorStatus
deriving DecidableEq, Repr

/-- The events (60_exceptions.md R302). -/
inductive Event where
  /-- The event of a raised error: its code is the error's. -/
  | error (e : Error)
  | started
  | stopped
  | openAttempt (n : W32)
  | openFail (n : W16)
  | linkUp
  | linkDown (cause : LinkCause)
  | sessState (old new : SessState)
  | frame (f : Frame) (pc : W32)
  | ignored (st : Station) (dn value : W16)
  | ackSent
  | duplicate (dn value : W16)
  | report (dn value : W16)
  | changed (field : StatusField) (old new : W16)
  | arrival (floor : W16)
  | floorCmd (value : W16)
  | doorCmd (value : W16)
  | unknownDn (dn value : W16)
  | unhandled (dn value : W16)
  | reservedValue (dn value : W16)
  | responseSent (dn : W16)
  | strayAck (st : Station)
  | nak (st : Station)
  | issued (dn value : W16)
  | cmdOk (dn value : W16) (retries : BitVec 8)
  | retry (dn : W16) (n : BitVec 8)
  | cmdCancelled (dn value : W16)
deriving DecidableEq, Repr

/-- The pulses at the device boundary (10_state.md R51). -/
inductive DevPulse where
  /-- `dev_open_req`. -/
  | openReq
  /-- `dev_close`. -/
  | close
deriving DecidableEq, Repr

/-- The copy that `SNAPSHOT` returns (46_session_tx.md R265). -/
structure Snapshot where
  currentFloor : W16
  targetFloor : Option W16
  loadWeight : W16
  moving : Bool
  doorStatus : BitVec 2
  linkState : LinkState
  failCnt : BitVec 8
  sessState : SessState
  pendValid : Bool
  retryCnt : BitVec 8
deriving DecidableEq, Repr

/-- The answer on the host port: `hr_status`, and the copy when the operation was `SNAPSHOT` (46_session_tx.md R260). -/
structure HostReply where
  status : BitVec 4
  copy : Option Snapshot
deriving DecidableEq, Repr

/-! ## MODEL: which atomic step comes next -/

/-- One atomic step of one agent (00_scope.md R12, 10_state.md R20), or the reset input (10_state.md R50). -/
inductive Action where
  /-- `A-TIME`: `Tick`. -/
  | tick
  /-- `A-LINE`: one received character with its two error flags, `RxChar`. -/
  | rxChar (b : Byte) (perr ferr : Bool)
  /-- `A-LINE`: the sampled bits of one character on `rxd`, start bit first (42_serial_phy.md R150, R153). -/
  | rxBits (bits : List Bool)
  /-- `A-DEV`: `DevOpenOk`. -/
  | devOpenOk
  /-- `A-DEV`: `DevOpenFail`. -/
  | devOpenFail
  /-- `A-DEV`: `DevError`. -/
  | devError
  /-- `A-HOST`: an operation word on the host port. -/
  | host (w : BitVec 36)
  /-- `rst` is 1 at a clock edge (70_reset_and_hazards.md R340). -/
  | rst
  /-- `A-LINK`: `L-OPEN`. -/
  | lOpen
  /-- `A-LINK`: `L-IDLE`. -/
  | lIdle
  /-- `A-LINK`: `S-SKIP`. -/
  | sSkip
  /-- `A-LINK`: `S-EMIT`. -/
  | sEmit
  /-- `A-LINK`: `S-REJECT`. -/
  | sReject
  /-- `A-SESS`: `X-FRAME`. -/
  | xFrame
  /-- `A-SESS`: `X-TIMEOUT`. -/
  | xTimeout
  /-- `A-PHYTX`: `TxByte`. -/
  | txByte
deriving DecidableEq, Repr

/-- Whose turn it is in a round of the reference schedule (60_exceptions.md R319). -/
inductive Phase where
  /-- `A-LINK`'s, until none of its steps is enabled. -/
  | link
  /-- `A-SESS`'s, until none of its steps is enabled. -/
  | session
  /-- `A-PHYTX`'s, until `txq` is empty. -/
  | transmit
deriving DecidableEq, Repr

/-! ## The state -/

/-- All the state of the block (10_state.md), its outputs since reset, and the model's own schedule. -/
structure State where
  /-- The configuration record, read-only (10_state.md R38). -/
  cfg : Config
  /-- `now` (10_state.md R22). -/
  now : W32
  /-- `current_floor` (10_state.md R24). -/
  currentFloor : W16
  /-- `target_floor`: none is `target_valid` = 0 (10_state.md R25). -/
  targetFloor : Option W16
  /-- `load_weight` (10_state.md R26). -/
  loadWeight : W16
  /-- `moving` (10_state.md R28). -/
  moving : Bool
  /-- `door_status`: 0 stop, 1 open, 2 close, 3 unknown (10_state.md R27). -/
  doorStatus : BitVec 2
  /-- `link_state` (10_state.md R33). -/
  linkState : LinkState
  /-- `fail_cnt` (10_state.md R33). -/
  failCnt : BitVec 8
  /-- `link_enable` (10_state.md R34). -/
  linkEnable : Bool
  /-- `attempt_cnt`, saturating (10_state.md R34). -/
  attemptCnt : W16
  /-- `backoff_t0` (10_state.md R34). -/
  backoffT0 : W32
  /-- `backoff_delay` (10_state.md R34). -/
  backoffDelay : W32
  /-- `last_rx_time` (10_state.md R35). -/
  lastRxTime : W32
  /-- `pend_valid` (10_state.md R36). -/
  pendValid : Bool
  /-- `pend_dn` (10_state.md R36). -/
  pendDn : W16
  /-- `pend_value` (10_state.md R36). -/
  pendValue : W16
  /-- `retry_cnt` (10_state.md R36). -/
  retryCnt : BitVec 8
  /-- `ack_t0` (10_state.md R36). -/
  ackT0 : W32
  /-- `sess_state` (10_state.md R37). -/
  sessState : SessState
  /-- `dedup` (10_state.md R39): the entries that are not none, data numbers strictly rising. -/
  dedup : List DedupEntry
  /-- `rx_buf`, the oldest byte first; `rx_len` is its length (10_state.md R40). -/
  rxBuf : List Byte
  /-- `scan_pc`, the program counter (10_state.md R41). -/
  scanPc : W32
  /-- `fq`, the head first (10_state.md R42). -/
  fq : List Frame
  /-- `txq`, the head first, each an encoded frame (10_state.md R43). -/
  txq : List (List Byte)
  /-- `tx_active` (10_state.md R44). -/
  txActive : Bool
  /-- `tx_idx` (10_state.md R44). -/
  txIdx : BitVec 4
  /-- The event trace, in emission order (60_exceptions.md R302). -/
  events : List Event
  /-- `line_out`: the bytes put on the line, in order (42_serial_phy.md R152). -/
  lineOut : List Byte
  /-- The pulses given to the device, in order (10_state.md R51). -/
  devOut : List DevPulse
  /-- The host port's answer: none when `hr_valid` is 0 (10_state.md R53). -/
  hostReply : Option HostReply
  /-- MODEL (log 2). The steps to take next, in order; when empty the reference schedule chooses. -/
  sched : List Action
  /-- MODEL (log 2). Whose turn it is in the reference schedule's round: the last step's agent's, or `A-LINK`'s after a step
  of the environment; read only while `sched` is empty. -/
  phase : Phase
deriving DecidableEq, Repr

/-! ## How a step can stop -/

/-- There is no fault: no error stops the block, each is an event with an effect (60_exceptions.md R300, R324). An empty
type says it; nothing raises one (safe: no behaviour is cut off). -/
inductive Fault where
deriving DecidableEq, Repr

/-- Why a step has no meaning. -/
inductive Refusal where
  /-- An arm of `exec` whose instruction has no meaning yet. No arm answers it (safe). -/
  | notModelled (mnemonic : String)
deriving DecidableEq, Repr

/-! ## Reset -/

/-- Every register at its reset value (70_reset_and_hazards.md R341), for any configuration record, which reset does
not change (R340); the outputs and the schedule are empty, and the reference schedule begins with `A-LINK`. -/
def State.resetWith (c : Config) : State where
  cfg := c
  now := 0
  currentFloor := c.groundFloor
  targetFloor := none
  loadWeight := 0x0000
  moving := false
  doorStatus := 3
  linkState := .disconnected
  failCnt := 0
  linkEnable := false
  attemptCnt := 0
  backoffT0 := 0
  backoffDelay := 0
  lastRxTime := 0
  pendValid := false
  pendDn := 0x0000
  pendValue := 0x0000
  retryCnt := 0
  ackT0 := 0
  sessState := .idle
  dedup := []
  rxBuf := []
  scanPc := 0
  fq := []
  txq := []
  txActive := false
  txIdx := 0
  events := []
  lineOut := []
  devOut := []
  hostReply := none
  sched := []
  phase := .link

/-- The machine right after reset, with the configuration of the spec's defaults (log 1). -/
def State.reset : State := State.resetWith Config.default

end Sys2Proof.Machine
end

