-- ==== Sys2Proof/Machine/Ops.lean ====
section
/-! DEFINITION. The named operations over the state: events and errors (60_exceptions.md), buffers and queues
(20_memory.md), the dedup table (44_dedup.md), sending (43_link_scanner.md R188) and the exchange (46_session_tx.md). -/

namespace Sys2Proof.Machine

/-! ## Time (60_exceptions.md R331) -/

/-- `elapsed(t0)`: the ticks since `t0`, modulo 2^32. -/
def elapsed (s : State) (t0 : W32) : W32 := s.now - t0

/-! ## Events, errors, replies -/

/-- `emit`: append one event to the trace (60_exceptions.md R302). -/
def emit (e : Event) (s : State) : State := { s with events := s.events ++ [e] }

/-- TAKING AN ERROR (60_exceptions.md R300, R322): `raise` emits the error's event and nothing else; no register saves a
pc or a status, no mode changes and control goes nowhere. The effect of an error stands in the rule that raises it, in
the same step. There is no return from one and nothing to restore (R323). -/
def raise (e : Error) (s : State) : State := emit (.error e) s

/-- The numeric codes (60_exceptions.md R301). -/
def Error.code : Error → BitVec 4
  | .malformedFrame _ _ => 1
  | .malformedCommand _ => 2
  | .malformedAck _ => 3
  | .checksumMismatch _ _ _ => 4
  | .ackTimeout _ _ => 5
  | .retryExhausted _ _ => 6
  | .linkIOError _ => 7
  | .linkNotReady => 8
  | .maxReconnectExceeded _ => 9
  | .busy => 10
  | .roleViolation => 11
  | .rxCharError _ _ _ => 12
  | .rxOverrun _ => 13
  | .idleTimeout _ => 14
  | .badRequest => 15

/-- The answer on the host port (46_session_tx.md R260). -/
def reply (status : BitVec 4) (copy : Option Snapshot) (s : State) : State :=
  { s with hostReply := some ⟨status, copy⟩ }

/-- `return 0`: the operation is accepted (46_session_tx.md R260). -/
def accept (s : State) : State := reply 0 none s

/-- `return <Error>`: the operation is refused; the error's event is emitted and no register changes
(46_session_tx.md R260). -/
def refuse (e : Error) (s : State) : State := reply e.code none (raise e s)

/-- A pulse on the device boundary (10_state.md R51). -/
def pulse (p : DevPulse) (s : State) : State := { s with devOut := s.devOut ++ [p] }

/-! ## Link modes (10_state.md R33) -/

/-- The link is up: Connected or Degraded. -/
def LinkState.up : LinkState → Bool
  | .connected => true
  | .degraded => true
  | .disconnected => false
  | .connecting => false

/-- Link up, of a state. -/
def linkUp (s : State) : Bool := s.linkState.up

/-! ## The receive stream (20_memory.md R61 to R64) -/

/-- `BufAppend` (R62); its precondition is tested by the caller. -/
def bufAppend (b : Byte) (s : State) : State := { s with rxBuf := s.rxBuf ++ [b] }

/-- `BufDrop` (R63): the first `n` bytes go and the scan position moves on by `n`. -/
def bufDrop (n : Nat) (s : State) : State :=
  { s with rxBuf := s.rxBuf.drop n, scanPc := s.scanPc + BitVec.ofNat 32 n }

/-- `MemRead` (R64). -/
def memRead (a n : Nat) (s : State) : List Byte := (s.rxBuf.drop a).take n

/-! ## The frame queue and the transmit queue (20_memory.md R66, R68) -/

/-- `fq` holds `FQ_DEPTH` frames or more. -/
def fqFull (s : State) : Bool := s.cfg.fqDepth ≤ s.fq.length

/-- `FqPush` (R66); its precondition is tested by the caller. -/
def fqPush (f : Frame) (s : State) : State := { s with fq := s.fq ++ [f] }

/-- `FqPop` (R66): the head removed. -/
def fqPop (s : State) : State := { s with fq := s.fq.tail }

/-- `txq` has room for `n` more frames (R68). -/
def txqRoom (n : Nat) (s : State) : Bool := s.txq.length + n ≤ s.cfg.txqDepth

/-- `TxPush` (R68); its precondition is tested by the enabling condition of the step. -/
def txPush (B : List Byte) (s : State) : State := { s with txq := s.txq ++ [B] }

/-- `SEND` (43_link_scanner.md R188). -/
def send (B : List Byte) (s : State) : State :=
  if linkUp s then txPush B s else raise .linkNotReady s

/-! ## The dedup table (20_memory.md R69, 44_dedup.md) -/

/-- `dedup[dn]`: none where no entry is listed. -/
def dedupRead (t : List DedupEntry) (dn : W16) : Option (W16 × W32) :=
  match t with
  | [] => none
  | e :: r => if e.dn = dn then some (e.value, e.ts) else dedupRead r dn

/-- `dedup[dn] <- Some (value, ts)`, the data numbers kept strictly rising. -/
def dedupWrite (t : List DedupEntry) (dn value : W16) (ts : W32) : List DedupEntry :=
  match t with
  | [] => [⟨dn, value, ts⟩]
  | e :: r =>
    if dn < e.dn then ⟨dn, value, ts⟩ :: e :: r
    else if e.dn = dn then ⟨dn, value, ts⟩ :: r
    else e :: dedupWrite r dn value ts

/-- The canonical form of the table: data numbers strictly rising. An unlisted entry reads as none, which no listed entry
is, so equal tables are equal lists. -/
def dedupWf : List DedupEntry → Bool
  | [] => true
  | [_] => true
  | a :: b :: r => a.dn < b.dn && dedupWf (b :: r)

/-- The answer of `IS_DUPLICATE` (44_dedup.md R211): an entry inside the window, with the same value. -/
def isDuplicate (dn value : W16) (s : State) : Bool :=
  match dedupRead s.dedup dn with
  | none => false
  | some (v0, t0) => if s.cfg.dedupWindow < (elapsed s t0).toNat then false else v0 == value

/-- The write of `IS_DUPLICATE` (44_dedup.md R211): in every arm but (c), the duplicate's. -/
def dedupUpdate (dn value : W16) (s : State) : State :=
  if isDuplicate dn value s then s else { s with dedup := dedupWrite s.dedup dn value s.now }

/-! ## The session's procedures -/

/-- A change of `sess_state`, with its event when the state changes (45_session_rx.md R241 to R244). -/
def setSess (new : SessState) (s : State) : State :=
  if s.sessState = new then s else emit (.sessState s.sessState new) { s with sessState := new }

/-- The exchange is over: the arming bit and the retry counter are cleared, the rest of the command slot keeps its
values (46_session_tx.md R267). -/
def endExchange (s : State) : State := { s with pendValid := false, retryCnt := 0 }

/-- `ExchangeSuccess` (46_session_tx.md R267). -/
def exchangeSuccess (s : State) : State := endExchange (emit (.cmdOk s.pendDn s.pendValue s.retryCnt) s)

/-- A pending exchange is cancelled; nothing happens when none is (46_session_tx.md R270, 43_link_scanner.md R182). -/
def cancelExchange (s : State) : State :=
  if s.pendValid then endExchange (emit (.cmdCancelled s.pendDn s.pendValue) s) else s

/-- `rx_buf`, `fq` and `txq` emptied and the transmitter idle (20_memory.md R79). -/
def flushQueues (s : State) : State := { s with rxBuf := [], fq := [], txq := [], txIdx := 0, txActive := false }

/-- The status as `RSP_VALUE` sees it (10_state.md R23). -/
def elevatorStatus (s : State) : ElevatorStatus :=
  ⟨s.currentFloor, s.targetFloor, s.loadWeight, s.moving, s.doorStatus⟩

/-- `SendResponse(req_dn, req_value)`, where `rspDn` is `RSP(req_dn)` (45_session_rx.md R245). -/
def sendResponse (rspDn reqDn reqValue : W16) (s : State) : State :=
  emit (.responseSent rspDn)
    (send (encodeCmd s.cfg.peerId rspDn (s.cfg.response reqDn reqValue (elevatorStatus s))) s)

end Sys2Proof.Machine
end

