-- ==== Sys2Proof/Machine/Operands.lean ====
section
/-! DEFINITION. What the operands of an instruction select: the capability table of the roles (60_exceptions.md R320), the
response map (45_session_rx.md R240), and the common way to a received frame's own effect (45_session_rx.md R220 to
R227, R237). -/

namespace Sys2Proof.Machine

/-- `EMITS(ROLE)`: what the host may issue (60_exceptions.md R320). -/
def emits (c : Config) (dn : W16) : Bool :=
  match c.role with
  | .dataSource =>
    [0x0001, 0x0002, 0x0003].contains dn
      || (c.handshakeEn && [c.dnPing, c.dnStatusReq, c.dnControlReq].contains dn)
  | .controller =>
    [0x0010, 0x0011].contains dn
      || (c.handshakeEn && [c.dnPing, c.dnStatusReq, c.dnControlReq, c.dnFloorCmd, c.dnDoorCmd].contains dn)

/-- `CONSUMES(ROLE)` (60_exceptions.md R320). -/
def consumes (c : Config) (dn : W16) : Bool :=
  match c.role with
  | .dataSource =>
    [0x0010, 0x0011].contains dn || (c.handshakeEn && c.handshakeDns.contains dn)
  | .controller =>
    [0x0001, 0x0002, 0x0003].contains dn
      || (c.handshakeEn
        && [c.dnPing, c.dnStatusReq, c.dnControlReq, c.dnPong, c.dnStatusRsp, c.dnControlAck].contains dn)

/-- `RSP`: the response of a handshake request; undefined of anything else (45_session_rx.md R240). -/
def rspOf (c : Config) (dn : W16) : Option W16 :=
  if !c.handshakeEn then none
  else if dn = c.dnPing then some c.dnPong
  else if dn = c.dnStatusReq then some c.dnStatusRsp
  else if dn = c.dnControlReq then some c.dnControlAck
  else none

/-- `X-FRAME` may be taken once a frame is there: link up (60_exceptions.md R321) and room for two frames in `txq`
(45_session_rx.md R220). -/
def frameReady (s : State) : Bool := linkUp s && txqRoom 2 s

/-- One `X-FRAME` step on a frame whose effect is `body` (45_session_rx.md R221): the frame is popped and executed
completely. While the step is not enabled nothing happens and the frame stays in `fq` (20_memory.md R68). -/
def onFrame (body : State → State) (s : State) : Host.Outcome State Fault Refusal :=
  if frameReady s then .next (body (fqPop s)) else .next s

/-- The ACK response (45_session_rx.md R226). -/
def sendAck (s : State) : State := emit .ackSent (send (encodeAck .ack s.cfg.ownId) s)

/-- The common sequence of a CommandFrame around its own effect (45_session_rx.md R224 to R227). -/
def onCommand (st : Station) (dn value : W16) (body : State → State) (s : State) : State :=
  if st ≠ s.cfg.ownId then emit (.ignored st dn value) s
  else if isDuplicate dn value s then emit (.duplicate dn value) (sendAck s)
  else body (emit (.report dn value) (dedupUpdate dn value (sendAck s)))

/-- The role check before a frame's own effect (45_session_rx.md R237). -/
def ifConsumed (dn value : W16) (body : State → State) (s : State) : State :=
  if consumes s.cfg dn then body s else emit (.unhandled dn value) s

end Sys2Proof.Machine
end

