-- ==== Sys2Proof/Machine/AckFrames.lean ====
section
/-! DEFINITION. The acknowledgement frames: `ACK` and `NAK` (45_session_rx.md R222, R223). -/

namespace Sys2Proof.Machine

/-- The effect of an ACK: it completes a pending exchange when the peer sent it, else it is stray (R222). -/
def ackEffect (st : Station) (s : State) : State :=
  if s.pendValid && st == s.cfg.peerId then exchangeSuccess s else emit (.strayAck st) s

/-- `ACK` (R222). -/
def execAck (st : Station) (s : State) : Host.Outcome State Fault Refusal := onFrame (ackEffect st) s

/-- `NAK` (R223): no register is written, a pending exchange stays pending. -/
def execNak (st : Station) (s : State) : Host.Outcome State Fault Refusal := onFrame (emit (.nak st)) s

end Sys2Proof.Machine
end

