-- ==== Sys2Proof/Machine/Flags.lean ====
section
/-! DEFINITION. The one-bit state that goes with other state: `moving` and `target_valid` with `target_floor`
(10_state.md R25, R28, R29), `door_status` values, and the error count of the link with its mode (10_state.md R33). -/

namespace Sys2Proof.Machine

/-- Every write of `target_floor` writes `moving` with it: 1 exactly when a target is pending (10_state.md R28). -/
def setTarget (t : Option W16) (s : State) : State := { s with targetFloor := t, moving := t.isSome }

/-- `target_valid` (10_state.md R25). -/
def targetValid (s : State) : Bool := s.targetFloor.isSome

/-- `target_value`: 0x0000 when there is no target (10_state.md R25); also how `ev_changed` writes none
(60_exceptions.md R302). -/
def floorOrZero (t : Option W16) : W16 := t.getD 0x0000

/-- A good character: no soft failure is outstanding, and Degraded is Connected again (43_link_scanner.md R183). -/
def clearFailures (s : State) : State :=
  { s with failCnt := 0, linkState := if s.linkState = .degraded then .connected else s.linkState }

/-- One more soft failure outstanding (43_link_scanner.md R185). -/
def degrade (s : State) : State := { s with failCnt := s.failCnt + 1, linkState := .degraded }

end Sys2Proof.Machine
end

