-- ==== Sys2Proof/Machine/Commands.lean ====
section
/-! DEFINITION. The commands as received: `FLOOR_SET`, `DOOR_CTL` and its three named values, the handshake variant's
`FLOOR_CMD` and `DOOR_CMD`, and `UNKNOWN_DN` (45_session_rx.md R234 to R236, R246, R247). -/

namespace Sys2Proof.Machine

/-- The effect of a floor-set command: it is handed to the host (R234). -/
def floorCommand (value : W16) (s : State) : State := emit (.floorCmd value) s

/-- The effect of a door-control command received under data number `dn` (R235). -/
def doorCommand (dn value : W16) (s : State) : State :=
  if value ≤ 0x0002 then
    let door := value.extractLsb' 0 2
    let s1 :=
      if s.doorStatus ≠ door then
        emit (.changed .doorStatus (s.doorStatus.setWidth 16) (door.setWidth 16)) s
      else s
    emit (.doorCmd value) { s1 with doorStatus := door }
  else emit (.reservedValue dn value) s

/-- `FLOOR_SET` (R234). -/
def execFloorSet (st : Station) (value : W16) (s : State) : Host.Outcome State Fault Refusal :=
  onFrame (onCommand st 0x0010 value (ifConsumed 0x0010 value (floorCommand value))) s

/-- `DOOR_CTL` (R235). -/
def execDoorCtl (st : Station) (value : W16) (s : State) : Host.Outcome State Fault Refusal :=
  onFrame (onCommand st 0x0011 value (ifConsumed 0x0011 value (doorCommand 0x0011 value))) s

/-- `DOOR_STOP` (R235, 30_encoding.md R109). -/
def execDoorStop (st : Station) (s : State) : Host.Outcome State Fault Refusal :=
  onFrame (onCommand st 0x0011 0x0000 (ifConsumed 0x0011 0x0000 (doorCommand 0x0011 0x0000))) s

/-- `DOOR_OPEN` (R235, 30_encoding.md R109). -/
def execDoorOpen (st : Station) (s : State) : Host.Outcome State Fault Refusal :=
  onFrame (onCommand st 0x0011 0x0001 (ifConsumed 0x0011 0x0001 (doorCommand 0x0011 0x0001))) s

/-- `DOOR_CLOSE` (R235, 30_encoding.md R109). -/
def execDoorClose (st : Station) (s : State) : Host.Outcome State Fault Refusal :=
  onFrame (onCommand st 0x0011 0x0002 (ifConsumed 0x0011 0x0002 (doorCommand 0x0011 0x0002))) s

/-- `FLOOR_CMD`: as `FLOOR_SET`, under the configured data number (R246). -/
def execFloorCmd (st : Station) (value : W16) (s : State) : Host.Outcome State Fault Refusal :=
  onFrame (onCommand st s.cfg.dnFloorCmd value (ifConsumed s.cfg.dnFloorCmd value (floorCommand value))) s

/-- `DOOR_CMD`: as `DOOR_CTL`, under the configured data number (R247). -/
def execDoorCmd (st : Station) (value : W16) (s : State) : Host.Outcome State Fault Refusal :=
  onFrame
    (onCommand st s.cfg.dnDoorCmd value
      (ifConsumed s.cfg.dnDoorCmd value (doorCommand s.cfg.dnDoorCmd value))) s

/-- `UNKNOWN_DN` (R236): no register is written; there is no role check. -/
def execUnknownDn (st : Station) (dn value : W16) (s : State) : Host.Outcome State Fault Refusal :=
  onFrame (onCommand st dn value (emit (.unknownDn dn value))) s

end Sys2Proof.Machine
end

