-- ==== Sys2Proof/Machine/Handshake.lean ====
section
/-! DEFINITION. The handshake sub-protocol: requests answered and responses received (45_session_rx.md R240 to R245). -/

namespace Sys2Proof.Machine

/-- One place forward, from the state named and from no other (R248). -/
def advance (old new : SessState) (s : State) : State := if s.sessState = old then setSess new s else s

/-- A request: the response is sent, then the state advances (R241 to R243). -/
def handshakeRequest (reqDn rspDn value : W16) (old new : SessState) (s : State) : State :=
  advance old new (sendResponse rspDn reqDn value s)

/-- A response: it completes the exchange of its request when that is pending, then the state advances (R244). -/
def handshakeResponse (dn : W16) (old new : SessState) (s : State) : State :=
  advance old new (if s.pendValid && rspOf s.cfg s.pendDn == some dn then exchangeSuccess s else s)

/-- `PING` (R241). -/
def execPing (st : Station) (value : W16) (s : State) : Host.Outcome State Fault Refusal :=
  onFrame
    (onCommand st s.cfg.dnPing value
      (handshakeRequest s.cfg.dnPing s.cfg.dnPong value .idle .handshaking)) s

/-- `PONG` (R244). -/
def execPong (st : Station) (value : W16) (s : State) : Host.Outcome State Fault Refusal :=
  onFrame (onCommand st s.cfg.dnPong value (handshakeResponse s.cfg.dnPong .idle .handshaking)) s

/-- `STATUS_REQ` (R242). -/
def execStatusReq (st : Station) (value : W16) (s : State) : Host.Outcome State Fault Refusal :=
  onFrame
    (onCommand st s.cfg.dnStatusReq value
      (handshakeRequest s.cfg.dnStatusReq s.cfg.dnStatusRsp value .handshaking .linked)) s

/-- `STATUS_RSP` (R244). -/
def execStatusRsp (st : Station) (value : W16) (s : State) : Host.Outcome State Fault Refusal :=
  onFrame (onCommand st s.cfg.dnStatusRsp value (handshakeResponse s.cfg.dnStatusRsp .handshaking .linked)) s

/-- `CONTROL_REQ` (R243). -/
def execControlReq (st : Station) (value : W16) (s : State) : Host.Outcome State Fault Refusal :=
  onFrame
    (onCommand st s.cfg.dnControlReq value
      (handshakeRequest s.cfg.dnControlReq s.cfg.dnControlAck value .linked .controlling)) s

/-- `CONTROL_ACK` (R244). -/
def execControlAck (st : Station) (value : W16) (s : State) : Host.Outcome State Fault Refusal :=
  onFrame (onCommand st s.cfg.dnControlAck value (handshakeResponse s.cfg.dnControlAck .linked .controlling)) s

end Sys2Proof.Machine
end

