-- ==== Sys2Proof/Machine/HostOps.lean ====
section
/-! DEFINITION. The host operations: `NOP`, `START`, `STOP`, `ISSUE`, `SNAPSHOT` (46_session_tx.md R260 to R265). -/

namespace Sys2Proof.Machine

/-- The registers that `START` writes, before it enables the supervisor (R262). -/
def sessionStart (s : State) : State :=
  { setTarget none (flushQueues s) with
    currentFloor := s.cfg.groundFloor
    loadWeight := 0x0000
    doorStatus := 3
    dedup := []
    sessState := .idle
    pendValid := false
    pendDn := 0x0000
    pendValue := 0x0000
    retryCnt := 0
    ackT0 := 0
    scanPc := 0
    failCnt := 0
    attemptCnt := 0
    backoffDelay := 0
    backoffT0 := s.now
    linkEnable := true }

/-- Every register but `now` at its reset value; the outputs, which are no registers, stay (R263). -/
def sessionStop (s : State) : State :=
  { State.resetWith s.cfg with
    now := s.now
    events := s.events
    lineOut := s.lineOut
    devOut := s.devOut
    hostReply := s.hostReply
    sched := s.sched }

/-- The event of a pending exchange that `STOP` cancels (R263). -/
def stopNotice (s : State) : State :=
  if s.pendValid then emit (.cmdCancelled s.pendDn s.pendValue) s else s

/-- `dev_close`, unless the device is closed already (R263). -/
def closeDevice (s : State) : State := if s.linkState ≠ .disconnected then pulse .close s else s

/-- The exchange begins: the command slot is filled, the frame is sent, the timer is started (R264 step 4). -/
def beginExchange (dn value : W16) (s : State) : State :=
  { send (encodeCmd s.cfg.peerId dn value) s with
    pendValid := true
    pendDn := dn
    pendValue := value
    retryCnt := 0
    ackT0 := s.now }

/-- The copy that `SNAPSHOT` returns (R265). -/
def snapshotOf (s : State) : Snapshot :=
  ⟨s.currentFloor, s.targetFloor, s.loadWeight, s.moving, s.doorStatus, s.linkState, s.failCnt, s.sessState,
    s.pendValid, s.retryCnt⟩

/-- `NOP` (R261). -/
def execNop (s : State) : Host.Outcome State Fault Refusal := .next (accept s)

/-- `START` (R262). -/
def execStart (s : State) : Host.Outcome State Fault Refusal :=
  if s.linkEnable then .next (refuse .badRequest s) else .next (accept (emit .started (sessionStart s)))

/-- `STOP` (R263). -/
def execStop (s : State) : Host.Outcome State Fault Refusal :=
  .next (accept (emit .stopped (sessionStop (closeDevice (stopNotice s)))))

/-- `ISSUE` (R264): the checks in the rule's order. -/
def execIssue (dn value : W16) (s : State) : Host.Outcome State Fault Refusal :=
  if !emits s.cfg dn then .next (refuse .roleViolation s)
  else if !linkUp s then .next (refuse .linkNotReady s)
  else if s.pendValid || !txqRoom 1 s then .next (refuse .busy s)
  else .next (accept (emit (.issued dn value) (beginExchange dn value s)))

/-- `SNAPSHOT` (R265). -/
def execSnapshot (s : State) : Host.Outcome State Fault Refusal := .next (reply 0 (some (snapshotOf s)) s)

end Sys2Proof.Machine
end

