-- ==== Sys2Proof/Machine/Reports.lean ====
section
/-! DEFINITION. The reports: `CUR_FLOOR`, `TGT_FLOOR`, `TGT_NONE`, `LOAD` (45_session_rx.md R229 to R233). -/

namespace Sys2Proof.Machine

/-- The effect of a current-floor report (R229). -/
def currentFloorReport (value : W16) (s : State) : State :=
  let s1 := if value ≠ s.currentFloor then emit (.changed .currentFloor s.currentFloor value) s else s
  { s1 with currentFloor := value }

/-- The effect of a target-floor report: the none sentinel and arrival (R231), immediate arrival (R232), a new target
(R230). -/
def targetFloorReport (value : W16) (s : State) : State :=
  if value = 0x0000 then
    match s.targetFloor with
    | some t => emit (.arrival t) (setTarget none { s with currentFloor := t })
    | none => s
  else if s.cfg.arriveOnEqual && value == s.currentFloor then
    emit (.arrival value) (setTarget none s)
  else
    setTarget (some value)
      (if s.targetFloor ≠ some value then emit (.changed .targetFloor (floorOrZero s.targetFloor) value) s else s)

/-- The effect of a load-weight report (R233). -/
def loadReport (value : W16) (s : State) : State :=
  let s1 := if value ≠ s.loadWeight then emit (.changed .loadWeight s.loadWeight value) s else s
  { s1 with loadWeight := value }

/-- `CUR_FLOOR` (R229). -/
def execCurFloor (st : Station) (value : W16) (s : State) : Host.Outcome State Fault Refusal :=
  onFrame (onCommand st 0x0001 value (ifConsumed 0x0001 value (currentFloorReport value))) s

/-- `TGT_FLOOR` (R230, R232). -/
def execTgtFloor (st : Station) (value : W16) (s : State) : Host.Outcome State Fault Refusal :=
  onFrame (onCommand st 0x0002 value (ifConsumed 0x0002 value (targetFloorReport value))) s

/-- `TGT_NONE` (R231). -/
def execTgtNone (st : Station) (s : State) : Host.Outcome State Fault Refusal :=
  onFrame (onCommand st 0x0002 0x0000 (ifConsumed 0x0002 0x0000 (targetFloorReport 0x0000))) s

/-- `LOAD` (R233). -/
def execLoad (st : Station) (value : W16) (s : State) : Host.Outcome State Fault Refusal :=
  onFrame (onCommand st 0x0003 value (ifConsumed 0x0003 value (loadReport value))) s

end Sys2Proof.Machine
end

