-- ==== Sys2Proof/Machine/Dispatch.lean ====
section
/-! DEFINITION. The meaning of each instruction, one arm per constructor. -/

namespace Sys2Proof.Machine

def exec (i : Instr) (s : State) : Host.Outcome State Fault Refusal :=
  match i with
  | .curFloor st value => Sys2Proof.Machine.execCurFloor st value s
  | .tgtFloor st value => Sys2Proof.Machine.execTgtFloor st value s
  | .tgtNone st => Sys2Proof.Machine.execTgtNone st s
  | .load st value => Sys2Proof.Machine.execLoad st value s
  | .floorSet st value => Sys2Proof.Machine.execFloorSet st value s
  | .doorCtl st value => Sys2Proof.Machine.execDoorCtl st value s
  | .doorStop st => Sys2Proof.Machine.execDoorStop st s
  | .doorOpen st => Sys2Proof.Machine.execDoorOpen st s
  | .doorClose st => Sys2Proof.Machine.execDoorClose st s
  | .ping st value => Sys2Proof.Machine.execPing st value s
  | .pong st value => Sys2Proof.Machine.execPong st value s
  | .statusReq st value => Sys2Proof.Machine.execStatusReq st value s
  | .statusRsp st value => Sys2Proof.Machine.execStatusRsp st value s
  | .controlReq st value => Sys2Proof.Machine.execControlReq st value s
  | .controlAck st value => Sys2Proof.Machine.execControlAck st value s
  | .floorCmd st value => Sys2Proof.Machine.execFloorCmd st value s
  | .doorCmd st value => Sys2Proof.Machine.execDoorCmd st value s
  | .unknownDn st dn value => Sys2Proof.Machine.execUnknownDn st dn value s
  | .ack st => Sys2Proof.Machine.execAck st s
  | .nak st => Sys2Proof.Machine.execNak st s
  | .nop => Sys2Proof.Machine.execNop s
  | .start => Sys2Proof.Machine.execStart s
  | .stop => Sys2Proof.Machine.execStop s
  | .issue dn value => Sys2Proof.Machine.execIssue dn value s
  | .snapshot => Sys2Proof.Machine.execSnapshot s

end Sys2Proof.Machine
end

