-- ==== Sys2Proof/Machine/Link.lean ====
section
/-! DEFINITION. LinkSupervisor: opening the device, backoff, link loss, received characters, soft failures, idle
supervision (43_link_scanner.md sections 1 and 2). A step that is not enabled changes nothing. -/

namespace Sys2Proof.Machine

/-- `next_delay` (R181). -/
def nextDelay (c : Config) (d : W32) : W32 :=
  BitVec.ofNat 32 (min c.backoffMax (max c.backoffMin (2 * d.toNat)))

/-- `L-OPEN` is enabled (R172). -/
def lOpenEnabled (s : State) : Bool :=
  s.linkState == .disconnected && s.linkEnable && s.backoffDelay ≤ elapsed s s.backoffT0

/-- `L-OPEN` (R172). -/
def lOpen (s : State) : State :=
  if lOpenEnabled s then
    emit (.openAttempt (s.attemptCnt.setWidth 32 + 1)) (pulse .openReq { s with linkState := .connecting })
  else s

/-- `DevOpenOk` (R173). -/
def devOpenOk (s : State) : State :=
  if s.linkState = .connecting then
    emit .linkUp
      { s with
        linkState := .connected
        failCnt := 0
        attemptCnt := 0
        backoffDelay := 0
        rxBuf := []
        scanPc := 0
        lastRxTime := s.now }
  else s

/-- The number of the attempt that has just failed, saturating (R174). -/
def failedAttempt (s : State) : W16 := if s.attemptCnt = 0xFFFF then 0xFFFF else s.attemptCnt + 1

/-- `MAX_RECONNECT` = `Some M` and `k ≥ M` (R174, R180). -/
def capReached (c : Config) (k : W16) : Bool :=
  match c.maxReconnect with
  | none => false
  | some m => m ≤ k.toNat

/-- `DevOpenFail` (R174). -/
def devOpenFail (s : State) : State :=
  if s.linkState = .connecting then
    let k := failedAttempt s
    let s1 := emit (.openFail k) { s with linkState := .disconnected, attemptCnt := k }
    if capReached s.cfg k then { raise (.maxReconnectExceeded k) s1 with linkEnable := false }
    else { s1 with backoffDelay := nextDelay s.cfg s.backoffDelay, backoffT0 := s.now }
  else s

/-- `LinkDown(cause)` (R182), the common effect of R185, R186 and R187. -/
def linkDown (cause : LinkCause) (s : State) : State :=
  let s1 := { pulse .close (emit (.linkDown cause) s) with linkState := .disconnected, failCnt := 0 }
  let s2 := setSess .idle (cancelExchange (flushQueues s1))
  { s2 with attemptCnt := 0, backoffDelay := BitVec.ofNat 32 s.cfg.backoffMin, backoffT0 := s.now }

/-- `SoftFail` (R185). -/
def softFail (s : State) : State :=
  if s.cfg.failLimit ≤ s.failCnt.toNat + 1 then linkDown .failLimit (raise (.linkIOError .failLimit) s)
  else degrade s

/-- `RxChar(b, perr, ferr)` (R183). -/
def rxChar (b : Byte) (perr ferr : Bool) (s : State) : State :=
  if linkUp s then
    let s1 := { s with lastRxTime := s.now }
    if perr || ferr then softFail (raise (.rxCharError b perr ferr) s1)
    else if s.cfg.rxbufSize ≤ s.rxBuf.length then softFail (raise (.rxOverrun b) s1)
    else clearFailures (bufAppend b s1)
  else s

/-- `DevError` (R186): an open failure while Connecting, ignored while Disconnected. -/
def devError (s : State) : State :=
  if linkUp s then linkDown .device (raise (.linkIOError .device) s)
  else if s.linkState = .connecting then devOpenFail s
  else s

/-- `IDLE_TIMEOUT` = `Some T` and `elapsed(last_rx_time) > T` (R187). -/
def idleExpired (s : State) : Bool :=
  match s.cfg.idleTimeout with
  | none => false
  | some t => t < (elapsed s s.lastRxTime).toNat

/-- `L-IDLE` is enabled (R187). -/
def lIdleEnabled (s : State) : Bool := linkUp s && idleExpired s

/-- `L-IDLE` (R187). -/
def lIdle (s : State) : State :=
  if lIdleEnabled s then linkDown .idle (raise (.idleTimeout (elapsed s s.lastRxTime)) s) else s

end Sys2Proof.Machine
end

