-- ==== Sys2Proof/Machine/Phy.lean ====
section
/-! DEFINITION. SerialPHY: the character format, the receiver and the step `TxByte` (42_serial_phy.md). -/

namespace Sys2Proof.Machine

/-- The eight data bits, least significant first (R150, 20_memory.md R71). -/
def dataBits (b : Byte) : List Bool :=
  [b.getLsbD 0, b.getLsbD 1, b.getLsbD 2, b.getLsbD 3, b.getLsbD 4, b.getLsbD 5, b.getLsbD 6, b.getLsbD 7]

/-- The even-parity bit: the exclusive or of the eight data bits (R150). -/
def parityBit (b : Byte) : Bool := (dataBits b).foldl xor false

/-- The bits of one character on the line, in order: start, data, parity when `PARITY` = Even, stop (R150, R151). -/
def charBits (p : Parity) (b : Byte) : List Bool :=
  match p with
  | .even => false :: (dataBits b ++ [parityBit b, true])
  | .off => false :: (dataBits b ++ [true])

/-- The byte of eight data bits, least significant first. -/
def byteOfBits (d0 d1 d2 d3 d4 d5 d6 d7 : Bool) : Byte :=
  BitVec.ofBool d7 ++ BitVec.ofBool d6 ++ BitVec.ofBool d5 ++ BitVec.ofBool d4
    ++ BitVec.ofBool d3 ++ BitVec.ofBool d2 ++ BitVec.ofBool d1 ++ BitVec.ofBool d0

/-- The receiver on the sampled bits of one character (R153): the byte, `perr`, `ferr`. Bits that do not begin with a
start bit, or are not one character long, give no character. -/
def receiveChar (p : Parity) (bits : List Bool) : Option (Byte × Bool × Bool) :=
  match p, bits with
  | .even, [false, d0, d1, d2, d3, d4, d5, d6, d7, par, stop] =>
    let b := byteOfBits d0 d1 d2 d3 d4 d5 d6 d7
    some (b, par != parityBit b, !stop)
  | .off, [false, d0, d1, d2, d3, d4, d5, d6, d7, stop] =>
    some (byteOfBits d0 d1 d2 d3 d4 d5 d6 d7, false, !stop)
  | _, _ => none

/-- `perr` as the receiver hands it over: always 0 when `PARITY` = None (R153). -/
def receivedPerr (c : Config) (perr : Bool) : Bool := perr && c.parity == .even

/-- `TxByte` is enabled (R152). -/
def txByteEnabled (s : State) : Bool := linkUp s && !s.txq.isEmpty

/-- `TxByte` (R152). An index past the head frame, which no run reaches, sends nothing. -/
def txByte (s : State) : State :=
  if linkUp s then
    match s.txq with
    | [] => s
    | F :: r =>
      match F[s.txIdx.toNat]? with
      | none => s
      | some b =>
        let s1 := { s with lineOut := s.lineOut ++ [b] }
        if s.txIdx.toNat + 1 = F.length then { s1 with txq := r, txIdx := 0, txActive := false }
        else { s1 with txIdx := s.txIdx + 1, txActive := true }
  else s

end Sys2Proof.Machine
end

