-- ==== Sys2Proof/Machine/Scanner.lean ====
section
/-! DEFINITION. The resynchronising scanner, the fetch unit (43_link_scanner.md section 4). -/

namespace Sys2Proof.Machine

/-- The frame length of a start byte; none for a byte outside `START` (R190). -/
def startLen (c : Config) (b : Byte) : Option Nat :=
  if b == ENQ then some 16
  else if b == ACK then some 5
  else if b == NAK && c.scanNak then some 5
  else none

/-- What applies to the head of `rx_buf` (R196). -/
inductive Verdict where
  /-- The link is not up. -/
  | off
  /-- `rx_buf` is empty. -/
  | empty
  /-- `S-SKIP` (R191). -/
  | skip (b : Byte)
  /-- The scanner waits for more bytes (R192). -/
  | hold
  /-- `S-EMIT` (R193), with the frame and its length. -/
  | emit (f : Frame) (n : Nat)
  /-- The scanner waits for room in `fq` (R195). -/
  | stall
  /-- `S-REJECT` (R194). -/
  | reject (b : Byte) (e : DecodeError)
deriving DecidableEq, Repr

/-- The one verdict on the scan position (R191 to R196). -/
def verdict (s : State) : Verdict :=
  if linkUp s then
    match s.rxBuf with
    | [] => .empty
    | b :: _ =>
      match startLen s.cfg b with
      | none => .skip b
      | some n =>
        if s.rxBuf.length < n then .hold
        else
          match decodeFrame (memRead 0 n s) with
          | .error e => .reject b e
          | .ok f => if fqFull s then .stall else .emit f n
  else .off

/-- The error that `S-REJECT` raises (R194, 60_exceptions.md R303 to R306). -/
def rejectError (b : Byte) (pc : W32) : DecodeError → Error
  | .malformedFrame => .malformedFrame b pc
  | .malformedCommand => .malformedCommand pc
  | .checksumMismatch claimed computed => .checksumMismatch pc claimed computed
  | .malformedAck => .malformedAck pc

/-- `S-SKIP` (R191). -/
def sSkip (s : State) : State :=
  match verdict s with
  | .skip b => bufDrop 1 (raise (.malformedFrame b s.scanPc) s)
  | _ => s

/-- `S-EMIT` (R193). -/
def sEmit (s : State) : State :=
  match verdict s with
  | .emit f n => bufDrop n (emit (.frame f s.scanPc) (fqPush f s))
  | _ => s

/-- `S-REJECT` (R194). -/
def sReject (s : State) : State :=
  match verdict s with
  | .reject b e => bufDrop 1 (raise (rejectError b s.scanPc e) s)
  | _ => s

end Sys2Proof.Machine
end

