-- ==== Sys2Proof/Machine/Agents.lean ====
section
/-! DEFINITION. The agents' atomic steps (10_state.md R20) and the reference schedule (60_exceptions.md R319). -/

namespace Sys2Proof.Machine

/-- `Tick` (60_exceptions.md R330). -/
def tick (s : State) : State := { s with now := s.now + 1 }

/-- `X-FRAME` (45_session_rx.md R221): the frame at the head of `fq` is executed as the instruction it is. -/
def xFrame (s : State) : Host.Outcome State Fault Refusal :=
  match s.fq with
  | [] => .next s
  | f :: _ => exec (classify s.cfg f) s

/-- `X-FRAME` is enabled (45_session_rx.md R220, 60_exceptions.md R321). -/
def xFrameEnabled (s : State) : Bool := !s.fq.isEmpty && frameReady s

/-- `X-TIMEOUT` is enabled (45_session_rx.md R220, 46_session_tx.md R268, 60_exceptions.md R321). -/
def xTimeoutEnabled (s : State) : Bool :=
  linkUp s && s.pendValid && s.cfg.ackTimeout ≤ (elapsed s s.ackT0).toNat && s.fq.isEmpty && txqRoom 1 s

/-- `X-TIMEOUT` (46_session_tx.md R268, R269): resend, or give up. -/
def xTimeout (s : State) : State :=
  if xTimeoutEnabled s then
    let s1 := raise (.ackTimeout s.pendDn s.retryCnt) s
    if s.retryCnt.toNat < s.cfg.maxRetries then
      emit (.retry s.pendDn (s.retryCnt + 1))
        { send (encodeCmd s.cfg.peerId s.pendDn s.pendValue) s1 with
          retryCnt := s.retryCnt + 1
          ackT0 := s.now }
    else endExchange (raise (.retryExhausted s.pendDn s.pendValue) s1)
  else s

/-- One host operation (46_session_tx.md R260); a reserved code is refused with `BadRequest`
(60_exceptions.md R317). -/
def hostOp (w : BitVec 36) (s : State) : Host.Outcome State Fault Refusal :=
  match decodeHop w with
  | .ok i => exec i s
  | .error _ => .next (refuse .badRequest s)

/-- `rst` at a clock edge (70_reset_and_hazards.md R340): every register at its reset value. What the line and the device
have seen stays, and so does the schedule (log 5). -/
def rst (s : State) : State :=
  { State.resetWith s.cfg with lineOut := s.lineOut, devOut := s.devOut, sched := s.sched }

/-- A character on `rxd` as its sampled bits (42_serial_phy.md R153). -/
def rxBits (bits : List Bool) (s : State) : State :=
  match receiveChar s.cfg.parity bits with
  | none => s
  | some (b, perr, ferr) => rxChar b perr ferr s

/-- One step of one agent. -/
def perform (a : Action) (s : State) : Host.Outcome State Fault Refusal :=
  match a with
  | .tick => .next (tick s)
  | .rxChar b perr ferr => .next (rxChar b (receivedPerr s.cfg perr) ferr s)
  | .rxBits bits => .next (rxBits bits s)
  | .devOpenOk => .next (devOpenOk s)
  | .devOpenFail => .next (devOpenFail s)
  | .devError => .next (devError s)
  | .host w => hostOp w s
  | .rst => .next (rst s)
  | .lOpen => .next (lOpen s)
  | .lIdle => .next (lIdle s)
  | .sSkip => .next (sSkip s)
  | .sEmit => .next (sEmit s)
  | .sReject => .next (sReject s)
  | .xFrame => xFrame s
  | .xTimeout => .next (xTimeout s)
  | .txByte => .next (txByte s)

/-- The scanner step that is enabled, if one is (43_link_scanner.md R196). -/
def scanAction (s : State) : Option Action :=
  match verdict s with
  | .skip _ => some .sSkip
  | .emit _ _ => some .sEmit
  | .reject _ _ => some .sReject
  | .off => none
  | .empty => none
  | .hold => none
  | .stall => none

/-- The step that `A-LINK` takes on its turn; the scanner goes before `L-IDLE`, which 60_exceptions.md R319 (c) lets
come before or after it (log 2). -/
def linkAction (s : State) : Option Action :=
  if lOpenEnabled s then some .lOpen
  else
    match scanAction s with
    | some a => some a
    | none => if lIdleEnabled s then some .lIdle else none

/-- The step that `A-SESS` takes on its turn (45_session_rx.md R220). -/
def sessionAction (s : State) : Option Action :=
  if xFrameEnabled s then some .xFrame else if xTimeoutEnabled s then some .xTimeout else none

/-- The step that `A-PHYTX` takes on its turn (42_serial_phy.md R152). -/
def transmitAction (s : State) : Option Action := if txByteEnabled s then some .txByte else none

/-- The step of the agent whose turn it is. -/
def phaseAction (s : State) : Phase → Option Action
  | .link => linkAction s
  | .session => sessionAction s
  | .transmit => transmitAction s

/-- The turns of a round from a phase on, round to the one before it. -/
def Phase.turns : Phase → List Phase
  | .link => [.link, .session, .transmit]
  | .session => [.session, .transmit, .link]
  | .transmit => [.transmit, .link, .session]

/-- The step of the first of the turns that has an enabled one. When no step of the block is enabled the environment lets
time pass. -/
def firstTurn (s : State) : List Phase → Action
  | [] => .tick
  | p :: r =>
    match phaseAction s p with
    | some a => a
    | none => firstTurn s r

/-- The reference schedule with an environment that does nothing but let time pass (60_exceptions.md R319): `A-LINK`
until none of its steps is enabled, then `A-SESS` until none is, then `A-PHYTX` until `txq` is empty, repeated while any
step is enabled; then `Tick` (log 2). -/
def referenceAction (s : State) : Action := firstTurn s s.phase.turns

/-- Whose turn it is after a step: an agent of the block keeps its turn, and after a step of the environment or of the
time base, and after reset, it is `A-LINK`'s (60_exceptions.md R319). -/
@[simp] def Action.turn : Action → Phase
  | .lOpen | .lIdle | .sSkip | .sEmit | .sReject => .link
  | .xFrame | .xTimeout => .session
  | .txByte => .transmit
  | .tick | .rxChar _ _ _ | .rxBits _ | .devOpenOk | .devOpenFail | .devError | .host _ | .rst => .link

/-- The next step: the schedule's, or the reference schedule's when it is empty (log 2). -/
def nextAction (s : State) : Action :=
  match s.sched with
  | [] => referenceAction s
  | a :: _ => a

/-- What stands around every step: the schedule moves on, the turn is the one that the step leaves, and the host port's
answer lasts one step (46_session_tx.md R260). -/
def beginStep (s : State) : State :=
  { s with sched := s.sched.tail, phase := (nextAction s).turn, hostReply := none }

/-! ## Placing an instruction (log 4) -/

/-- The configuration under which a row is in force: `HANDSHAKE_EN` and the data numbers for a handshake row,
`SCAN_NAK` for `NAK`; else as it stands (30_encoding.md R107, 45_session_rx.md R223). -/
def configFor (i : Instr) (c : Config) : Config :=
  if i.isHandshake then
    { c with
      handshakeEn := true
      dnPing := Config.allRows.dnPing
      dnPong := Config.allRows.dnPong
      dnStatusReq := Config.allRows.dnStatusReq
      dnStatusRsp := Config.allRows.dnStatusRsp
      dnControlReq := Config.allRows.dnControlReq
      dnControlAck := Config.allRows.dnControlAck
      dnFloorCmd := Config.allRows.dnFloorCmd
      dnDoorCmd := Config.allRows.dnDoorCmd }
  else
    match i with
    | .nak _ => { c with scanNak := true }
    | _ => c

/-- The link up and room in `txq`: what `START`, `L-OPEN`, `DevOpenOk` and `TxByte` steps bring about. -/
def linkReady (s : State) : State :=
  { s with
    linkState := if linkUp s then s.linkState else .connected
    linkEnable := true
    txq := if txqRoom 2 s then s.txq else [] }

/-- An instruction placed where the next step fetches it: a host word on the host port; a frame at the head of `fq`,
with `X-FRAME` next. Bytes that are no frame stand in `rx_buf`, with the scanner next. -/
def placeCode (k : Code) (s : State) : State :=
  match k with
  | .hop w => { s with sched := .host w :: s.sched }
  | .frame B =>
    match decodeFrame B with
    | .ok f =>
      let s1 := linkReady s
      { s1 with cfg := configFor (classify Config.allRows f) s.cfg, fq := f :: s.fq, sched := .xFrame :: s.sched }
    | .error _ =>
      let s1 := { linkReady s with rxBuf := B }
      match scanAction s1 with
      | some a => { s1 with sched := a :: s.sched }
      | none => s1

end Sys2Proof.Machine
end

