-- ==== Sys2Proof/Machine/Step.lean ====
section
/-! DEFINITION. One step of the machine, and the placing of an instruction for the next step. -/

namespace Sys2Proof.Machine

/-- One atomic step of the agent whose turn it is (00_scope.md R12). -/
def step (s : State) : Host.Outcome State Fault Refusal := perform (nextAction s) (beginStep s)

/-- The state with a table word placed where the next step fetches its instruction (log 4). -/
def State.withFetchWord (s : State) (nbits w : Nat) : State := placeCode (codeOfTableWord nbits w) s

end Sys2Proof.Machine
end

