-- ==== Sys2Proof/Machine/Ports.lean ====
section
/-! DEFINITION. The port form of the outputs: status outputs (10_state.md R54), the event output's codes and arguments
(60_exceptions.md R302), the line pins (10_state.md R52) and the numbers of the named registers (10_state.md R33, R37). -/

namespace Sys2Proof.Machine

/-- `link_state` as its two bits (10_state.md R33). -/
def LinkState.code : LinkState → BitVec 2
  | .disconnected => 0
  | .connecting => 1
  | .connected => 2
  | .degraded => 3

/-- `sess_state` as its two bits (10_state.md R37). -/
def SessState.code : SessState → BitVec 2
  | .idle => 0
  | .handshaking => 1
  | .linked => 2
  | .controlling => 3

/-- The cause of a link loss as the event carries it (60_exceptions.md R302). -/
def LinkCause.code : LinkCause → W32
  | .device => 1
  | .failLimit => 2
  | .idle => 3

/-- The field of `ev_changed` (60_exceptions.md R302). -/
def StatusField.code : StatusField → W32
  | .currentFloor => 1
  | .targetFloor => 2
  | .loadWeight => 3
  | .doorStatus => 4

/-- The status outputs (10_state.md R54). -/
structure StatusOutputs where
  stCurrentFloor : W16
  stTargetValid : Bool
  stTargetValue : W16
  stLoadWeight : W16
  stMoving : Bool
  stDoorStatus : BitVec 2
  stLinkState : BitVec 2
  stFailCnt : BitVec 8
  stSessState : BitVec 2
  stPendValid : Bool
  stRetryCnt : BitVec 8
deriving DecidableEq, Repr

/-- The status outputs of a state (10_state.md R54). -/
def statusOutputs (s : State) : StatusOutputs :=
  ⟨s.currentFloor, targetValid s, floorOrZero s.targetFloor, s.loadWeight, s.moving, s.doorStatus, s.linkState.code,
    s.failCnt, s.sessState.code, s.pendValid, s.retryCnt⟩

/-- A station in 32 bits, its first character in bits 31:24 (60_exceptions.md R302). -/
def Station.word (st : Station) : W32 := st.c0 ++ st.c1 ++ st.c2 ++ st.c3

/-- One bit as an event argument. -/
def bitArg (b : Bool) : W32 := (BitVec.ofBool b).setWidth 32

/-- `ev_code` (60_exceptions.md R302); an error's event has the error's code. -/
def Event.code : Event → Byte
  | .error e => e.code.setWidth 8
  | .started => 0x10
  | .stopped => 0x11
  | .openAttempt _ => 0x12
  | .openFail _ => 0x13
  | .linkUp => 0x14
  | .linkDown _ => 0x15
  | .sessState _ _ => 0x16
  | .frame _ _ => 0x20
  | .ignored _ _ _ => 0x21
  | .ackSent => 0x22
  | .duplicate _ _ => 0x23
  | .report _ _ => 0x24
  | .changed _ _ _ => 0x25
  | .arrival _ => 0x26
  | .floorCmd _ => 0x27
  | .doorCmd _ => 0x28
  | .unknownDn _ _ => 0x29
  | .unhandled _ _ => 0x2A
  | .reservedValue _ _ => 0x2B
  | .responseSent _ => 0x2C
  | .strayAck _ => 0x2D
  | .nak _ => 0x2E
  | .issued _ _ => 0x30
  | .cmdOk _ _ _ => 0x31
  | .retry _ _ => 0x32
  | .cmdCancelled _ _ => 0x33

/-- The information an error records, in the order of 60_exceptions.md R301. -/
def Error.args : Error → List W32
  | .malformedFrame b pc => [b.setWidth 32, pc]
  | .malformedCommand pc => [pc]
  | .malformedAck pc => [pc]
  | .checksumMismatch pc claimed computed => [pc, claimed.setWidth 32, computed.setWidth 32]
  | .ackTimeout dn retry => [dn.setWidth 32, retry.setWidth 32]
  | .retryExhausted dn value => [dn.setWidth 32, value.setWidth 32]
  | .linkIOError cause => [cause.code]
  | .linkNotReady => []
  | .maxReconnectExceeded k => [k.setWidth 32]
  | .busy => []
  | .roleViolation => []
  | .rxCharError b perr ferr => [b.setWidth 32, bitArg perr, bitArg ferr]
  | .rxOverrun b => [b.setWidth 32]
  | .idleTimeout t => [t]
  | .badRequest => []

/-- The event arguments `ev_arg0`, `ev_arg1`, `ev_arg2`, the unused ones left out (60_exceptions.md R302). -/
def Event.args : Event → List W32
  | .error e => e.args
  | .started => []
  | .stopped => []
  | .openAttempt n => [n]
  | .openFail n => [n.setWidth 32]
  | .linkUp => []
  | .linkDown cause => [cause.code]
  | .sessState old new => [old.code.setWidth 32, new.code.setWidth 32]
  | .frame (.cmd st dn value) pc => [Station.word st, dn ++ value, pc]
  | .frame (.ackFrame k st) pc => [Station.word st, k.byte.setWidth 32, pc]
  | .ignored st dn value => [Station.word st, dn ++ value]
  | .ackSent => []
  | .duplicate dn value => [dn.setWidth 32, value.setWidth 32]
  | .report dn value => [dn.setWidth 32, value.setWidth 32]
  | .changed field old new => [field.code, old.setWidth 32, new.setWidth 32]
  | .arrival floor => [floor.setWidth 32]
  | .floorCmd value => [value.setWidth 32]
  | .doorCmd value => [value.setWidth 32]
  | .unknownDn dn value => [dn.setWidth 32, value.setWidth 32]
  | .unhandled dn value => [dn.setWidth 32, value.setWidth 32]
  | .reservedValue dn value => [dn.setWidth 32, value.setWidth 32]
  | .responseSent dn => [dn.setWidth 32]
  | .strayAck st => [Station.word st]
  | .nak st => [Station.word st]
  | .issued dn value => [dn.setWidth 32, value.setWidth 32]
  | .cmdOk dn value retries => [dn.setWidth 32, value.setWidth 32, retries.setWidth 32]
  | .retry dn n => [dn.setWidth 32, n.setWidth 32]
  | .cmdCancelled dn value => [dn.setWidth 32, value.setWidth 32]

/-- The two surfaced errors, which an implementation is bound to deliver (60_exceptions.md R301, R324). -/
def Error.surfaced : Error → Bool
  | .retryExhausted _ _ => true
  | .maxReconnectExceeded _ => true
  | _ => false

/-- `tx_en` between two `TxByte` steps: a frame is being sent (42_serial_phy.md R152). -/
def txEn (s : State) : Bool := s.txActive

/-- The bits that the bytes of `line_out` put on `txd`, without idle time between characters (42_serial_phy.md R151). -/
def txdBits (s : State) : List Bool := s.lineOut.flatMap (charBits s.cfg.parity)

end Sys2Proof.Machine
end

