-- ==== Sys2Proof/Machine/TwoStations.lean ====
section
/-! DEFINITION. Two stations on one line (60_exceptions.md R325): two instances of the block that share nothing but the
line, the bytes of each delivered to the other in order. Loss and corruption are a byte passed over and an `RxChar` of
another character on either station's own schedule. -/

namespace Sys2Proof.Machine

/-- Two stations and how many bytes of each one's `line_out` the line has taken. -/
structure Pair where
  a : State
  b : State
  takenA : Nat
  takenB : Nat
deriving DecidableEq, Repr

/-- What happens next on the line or at a station. -/
inductive PairAction where
  /-- Station `a` takes its next step. -/
  | stepA
  /-- Station `b` takes its next step. -/
  | stepB
  /-- The next byte of `a` reaches `b`. -/
  | deliverToB
  /-- The next byte of `b` reaches `a`. -/
  | deliverToA
  /-- The next byte of `a` is lost. -/
  | loseFromA
  /-- The next byte of `b` is lost. -/
  | loseFromB
deriving DecidableEq, Repr

/-- The configurations of the two ends: ids exchanged, the two roles, the same line and handshake parameters
(60_exceptions.md R325, 70_reset_and_hazards.md R343). -/
def pairedConfigs (x y : Config) : Bool :=
  x.ok && y.ok && x.ownId == y.peerId && x.peerId == y.ownId && x.role != y.role && x.baud == y.baud
    && x.parity == y.parity && x.handshakeEn == y.handshakeEn && (!x.handshakeEn || x.handshakeDns == y.handshakeDns)

/-- A byte off the line at a station: an `RxChar` without error flags. It is a step of the environment, after which the
reference schedule begins with `A-LINK` (60_exceptions.md R319, R325). -/
def hear (b : Byte) (s : State) : State := rxChar b false false { s with hostReply := none, phase := .link }

/-- One step of the two-station system. -/
def pairStep (act : PairAction) (p : Pair) : Host.Outcome Pair Fault Refusal :=
  match act with
  | .stepA =>
    match step p.a with
    | .next s => .next { p with a := s }
    | .fault r => .fault r
    | .refused r => .refused r
  | .stepB =>
    match step p.b with
    | .next s => .next { p with b := s }
    | .fault r => .fault r
    | .refused r => .refused r
  | .deliverToB =>
    match p.a.lineOut[p.takenA]? with
    | none => .next p
    | some x => .next { p with b := hear x p.b, takenA := p.takenA + 1 }
  | .deliverToA =>
    match p.b.lineOut[p.takenB]? with
    | none => .next p
    | some x => .next { p with a := hear x p.a, takenB := p.takenB + 1 }
  | .loseFromA => .next { p with takenA := min (p.takenA + 1) p.a.lineOut.length }
  | .loseFromB => .next { p with takenB := min (p.takenB + 1) p.b.lineOut.length }

end Sys2Proof.Machine
end

