-- ==== Sys2Proof/Safety.lean ====
section
/-! DEFINITION. What the statements speak of: the machine's invariant, the hypotheses under which a frame is executed, and
the bytes waiting to be sent. -/

namespace Sys2Proof.Machine

/-- The invariant of the machine, one field for each promise of the spec. -/
structure Inv (s : State) : Prop where
  /-- The premises on the parameters (00_scope.md R8). -/
  cfgOk : s.cfg.ok = true
  /-- `fail_cnt` is 0 outside Degraded (10_state.md R33). -/
  failCntZero : s.linkState ≠ .degraded → s.failCnt = 0
  /-- `1 ≤ fail_cnt < FAIL_LIMIT` in Degraded (10_state.md R33). -/
  failCntRange : s.linkState = .degraded → 1 ≤ s.failCnt.toNat ∧ s.failCnt.toNat < s.cfg.failLimit
  /-- `moving` is 1 exactly while a target is pending (10_state.md R28). -/
  movingTarget : s.moving = s.targetFloor.isSome
  /-- A pending target is never 0x0000 (10_state.md R25). -/
  targetNonzero : s.targetFloor ≠ some 0x0000
  /-- `retry_cnt` is 0 with no exchange pending (10_state.md R36). -/
  retryIdle : s.pendValid = false → s.retryCnt = 0
  /-- `retry_cnt` stays within `MAX_RETRIES` (60_exceptions.md R332). -/
  retryBound : s.retryCnt.toNat ≤ s.cfg.maxRetries
  /-- While the link is not up nothing is held, pending or advanced (43_link_scanner.md R182). -/
  downQuiet : linkUp s = false →
    s.rxBuf = [] ∧ s.fq = [] ∧ s.txq = [] ∧ s.pendValid = false ∧ s.sessState = .idle
  /-- Not started implies Disconnected (46_session_tx.md R262). -/
  stoppedDown : s.linkEnable = false → s.linkState = .disconnected
  /-- `rx_len ≤ RXBUF_SIZE` (10_state.md R40). -/
  rxBound : s.rxBuf.length ≤ s.cfg.rxbufSize
  /-- At most `FQ_DEPTH` frames in `fq` (10_state.md R42). -/
  fqBound : s.fq.length ≤ s.cfg.fqDepth
  /-- At most `TXQ_DEPTH` frames in `txq` (10_state.md R43). -/
  txqBound : s.txq.length ≤ s.cfg.txqDepth
  /-- Every frame in `fq` has a station of four digits (20_memory.md R65). -/
  fqFrames : ∀ f ∈ s.fq, f.wf = true
  /-- A NAK reaches `fq` only with `SCAN_NAK` (45_session_rx.md R223). -/
  fqNak : ∀ st, Frame.ackFrame .nak st ∈ s.fq → s.cfg.scanNak = true
  /-- Every frame in `txq` has 5 or 16 bytes (20_memory.md R67). -/
  txqFrames : ∀ F ∈ s.txq, F.length = 5 ∨ F.length = 16
  /-- `tx_idx` is inside the head frame, and 0 when there is none (42_serial_phy.md R152). -/
  txIdxHead : s.txIdx = 0 ∨ ∃ F r, s.txq = F :: r ∧ s.txIdx.toNat < F.length
  /-- `tx_active` is 1 exactly while a frame is partly sent (42_serial_phy.md R152). -/
  txActiveIdx : s.txActive = decide (s.txIdx ≠ 0)
  /-- The dedup table is in its canonical form. -/
  dedupCanonical : dedupWf s.dedup = true
  /-- Without the handshake the session stays Idle (45_session_rx.md R240). -/
  handshakeOff : s.cfg.handshakeEn = false → s.sessState = .idle
  /-- `backoff_delay` is 0 or between its two bounds (43_link_scanner.md R181). -/
  backoffRange : s.backoffDelay = 0 ∨
    (s.cfg.backoffMin ≤ s.backoffDelay.toNat ∧ s.backoffDelay.toNat ≤ s.cfg.backoffMax)

/-- A CommandFrame of data number `dn` for station `st` is executed rather than ignored, suppressed or kept waiting: the
link is up, `txq` has room for two frames, the frame is addressed to this station and is no duplicate
(45_session_rx.md R220, R224, R227). -/
structure Fresh (s : State) (st : Station) (dn value : W16) : Prop where
  up : linkUp s = true
  room : s.txq.length + 2 ≤ s.cfg.txqDepth
  addressed : st = s.cfg.ownId
  notDuplicate : isDuplicate dn value s = false

/-- The state after the common part of a frame that is executed, written out: the frame popped, the ACK queued, the dedup
entry written, the two events (45_session_rx.md R226, R227). Nothing else is touched. -/
def afterReport (s : State) (dn value : W16) : State :=
  { s with
    fq := s.fq.tail
    txq := s.txq ++ [encodeAck .ack s.cfg.ownId]
    dedup := dedupWrite s.dedup dn value s.now
    events := s.events ++ [.ackSent, .report dn value] }

/-- More events at the end of the trace. -/
def withEvents (s : State) (es : List Event) : State := { s with events := s.events ++ es }

/-- The bytes queued for the line and not yet sent, in the order they will be sent (20_memory.md R77). -/
def unsentBytes (s : State) : List Byte := s.txq.flatten.drop s.txIdx.toNat

/-- `ACK_TIMEOUT` ticks pass with the line drained and nothing received, then `X-TIMEOUT` is taken
(46_session_tx.md R272). A device of the model: the ticks and the draining are done at once, without `Tick` and `TxByte`
steps. -/
def silentRound (s : State) : State :=
  xTimeout { s with now := s.now + BitVec.ofNat 32 s.cfg.ackTimeout, txq := [], txIdx := 0, txActive := false }

/-- `n` silent rounds in a row. -/
def silentRounds : Nat → State → State
  | 0, s => s
  | n + 1, s => silentRound (silentRounds n s)

/-- The delay after `n` failed attempts that follow a `LinkDown` (43_link_scanner.md R181). -/
def delayAfter (c : Config) : Nat → W32
  | 0 => BitVec.ofNat 32 c.backoffMin
  | n + 1 => nextDelay c (delayAfter c n)

/-- The state after `LinkDown(cause)`, written out field by field (43_link_scanner.md R182). Nothing else is touched. -/
def afterLinkDown (cause : LinkCause) (s : State) : State :=
  { s with
    linkState := .disconnected
    failCnt := 0
    rxBuf := []
    fq := []
    txq := []
    txIdx := 0
    txActive := false
    pendValid := false
    retryCnt := if s.pendValid then 0 else s.retryCnt
    sessState := .idle
    attemptCnt := 0
    backoffDelay := BitVec.ofNat 32 s.cfg.backoffMin
    backoffT0 := s.now
    devOut := s.devOut ++ [.close]
    events := s.events ++ [.linkDown cause]
      ++ (if s.pendValid then [.cmdCancelled s.pendDn s.pendValue] else [])
      ++ (if s.sessState = .idle then [] else [.sessState s.sessState .idle]) }

/-- The scanner step that is enabled, taken; the state as it is when none is (43_link_scanner.md R196). -/
def scanStep (s : State) : State :=
  match verdict s with
  | .skip _ => sSkip s
  | .emit _ _ => sEmit s
  | .reject _ _ => sReject s
  | .off => s
  | .empty => s
  | .hold => s
  | .stall => s

/-- `n` scanner steps in a row. -/
def scanSteps : Nat → State → State
  | 0, s => s
  | n + 1, s => scanSteps n (scanStep s)

/-- The events of `n` silent rounds of one exchange: each a timeout and a resend (46_session_tx.md R269). -/
def retryEvents (dn : W16) : Nat → List Event
  | 0 => []
  | n + 1 =>
    retryEvents dn n ++ [.error (.ackTimeout dn (BitVec.ofNat 8 n)), .retry dn (BitVec.ofNat 8 n + 1)]

/-- The actions of the time base, the host and reset; every other action is one of the link, the line, the device, the
session or the transmitter (10_state.md R20). -/
def Action.isTimeOrHost : Action → Bool
  | .tick => true
  | .host _ => true
  | .rst => true
  | _ => false

end Sys2Proof.Machine
end

