-- ==== Sys2Proof/Certificates/Slice0/Obligations.lean ====
section
/-! DEFINITION. The statements for the provers. Each docstring names the rule of the spec, and the spec's own decision D<n>
where the rule marks a part as one. A result is stated as the whole next state: a record update of the old state, so that
every field it does not name is unchanged. -/

open Sys2Proof Sys2Proof.Machine

/-! ## Encoding -/

/-- Decoding the words of a well-formed instruction gives the instruction back, for every row of the table and every
operand (30_encoding.md R107, 41_frame_codec.md R137, 45_session_rx.md R228). -/
def Obligations.DecodeEncodeEveryInstruction : Prop :=
  ∀ (c : Config) (i : Instr), c.ok = true → i.wf c = true → decodeCode c (encode c i) = some i

/-- 41_frame_codec.md R137: the round trip of both frame shapes, and the converse up to letter case. -/
def Obligations.FrameRoundTripAndConverse : Prop :=
  (∀ (st : Station) (dn v : W16), st.isDigits = true → decodeFrame (encodeCmd st dn v) = .ok (.cmd st dn v))
  ∧ (∀ (k : AckKind) (st : Station), st.isDigits = true → decodeFrame (encodeAck k st) = .ok (.ackFrame k st))
  ∧ (∀ (B : List Byte) (st : Station) (dn v : W16), decodeFrame B = .ok (.cmd st dn v) →
      (encodeCmd st dn v = B ↔ ∀ b ∈ B.drop 6, isDigit b = true ∨ (0x41 ≤ b ∧ b ≤ 0x46)))

/-- What decodes is a well-formed instruction of the wire, never a host operation (45_session_rx.md R228,
20_memory.md R65). -/
def Obligations.DecodedInstructionIsWellFormed : Prop :=
  ∀ (c : Config) (B : List Byte) (i : Instr), decode c B = .ok i → i.wf c = true ∧ i.isHostOp = false

/-- A few words written out from 95_test_vectors.md sections 3.1, 3.2 and 10 decode to what they stand for. -/
def Obligations.WrittenWordsDecode : Prop :=
  decode Config.default [0x05, 0x30, 0x30, 0x30, 0x31, 0x57, 0x30, 0x30, 0x30, 0x33, 0x30, 0x31, 0x46, 0x34, 0x42, 0x38]
      = .ok (.load ⟨0x30, 0x30, 0x30, 0x31⟩ 0x01F4)
  ∧ decode Config.default [0x05, 0x30, 0x30, 0x30, 0x32, 0x57, 0x30, 0x30, 0x31, 0x31, 0x30, 0x30, 0x30, 0x31, 0x39, 0x45]
      = .ok (.doorOpen ⟨0x30, 0x30, 0x30, 0x32⟩)
  ∧ decode Config.default [0x05, 0x30, 0x30, 0x30, 0x31, 0x57, 0x30, 0x30, 0x31, 0x30, 0x30, 0x30, 0x30, 0x31, 0x39, 0x44]
      = .error (.checksumMismatch 0x9D 0x9C)
  ∧ decode Config.default [0x06, 0x30, 0x30, 0x30, 0x32] = .ok (.ack ⟨0x30, 0x30, 0x30, 0x32⟩)
  ∧ decodeHop 0x300100003 = .ok (.issue 0x0010 0x0003)

/-- 40_checksum.md R120: the sum of the bytes modulo 2^16, its two bytes added with the carry dropped, and its text two
upper-case hex characters, high nibble first. -/
def Obligations.ChecksumIsFoldOfSum : Prop :=
  (∀ B : List Byte, (ckCompute B).toNat =
      ((B.map BitVec.toNat).sum % 2 ^ 16 % 256 + (B.map BitVec.toNat).sum % 2 ^ 16 / 256) % 256)
  ∧ (∀ v : Byte, ∃ a b : Byte, hex2 v = [a, b]
      ∧ (isDigit a = true ∨ (0x41 ≤ a ∧ a ≤ 0x46)) ∧ (isDigit b = true ∨ (0x41 ≤ b ∧ b ≤ 0x46))
      ∧ (hexval a).toNat = v.toNat / 16 ∧ (hexval b).toNat = v.toNat % 16)

/-- 40_checksum.md R123: `verify` accepts exactly the checksum of the same bytes, in either letter case, and for each
string exactly one value. -/
def Obligations.ChecksumVerifyIsExact : Prop :=
  (∀ B C : List Byte, ckVerify B C = true ↔
      ∃ a b, C = [a, b] ∧ isHex a = true ∧ isHex b = true ∧ unhex2 a b = ckCompute B)
  ∧ (∀ B : List Byte, ckVerify B (hex2 (ckCompute B)) = true)
  ∧ (∀ (B : List Byte) (v : Byte), ckVerify B (hex2 v) = true ↔ v = ckCompute B)
  ∧ (∀ (B : List Byte) (a b : Byte), ckVerify B [a, b] = true →
      [if 0x61 ≤ a then a - 0x20 else a, if 0x61 ≤ b then b - 0x20 else b] = hex2 (ckCompute B))

/-- 40_checksum.md R122 (b), (d), (f): no wrap for the 13 bytes of a body, the range of a well-formed body's sum, and
the order of the bytes does not matter. -/
def Obligations.ChecksumRangeAndOrder : Prop :=
  (∀ B : List Byte, B.length = 13 → (ckAcc B).toNat = (B.map BitVec.toNat).sum ∧ (ckAcc B).toNat ≤ 0x0CF3)
  ∧ (∀ (S H : List Byte), S.length = 4 → (∀ b ∈ S, isDigit b = true) → H.length = 8 → (∀ b ∈ H, isHex b = true) →
      0x0297 ≤ (ckAcc (S ++ CMD_W :: H)).toNat ∧ (ckAcc (S ++ CMD_W :: H)).toNat ≤ 0x046B)
  ∧ (∀ B C : List Byte, B.Perm C → ckCompute B = ckCompute C)

/-- `DECODE_CMD`'s checks in their order (41_frame_codec.md R133; that the checksum is checked here and that lower-case
letters pass are the spec's decisions D12 and D13), and every string that no control byte begins is `MalformedFrame`
(R132; that name for it is the spec's decision D14). -/
def Obligations.DecodeCommandChecks : Prop :=
  (∀ B : List Byte, B.head? = some ENQ →
    let malformed := B.length ≠ 16 ∨ (∃ b ∈ (B.drop 1).take 4, isDigit b = false) ∨ B[5]? ≠ some CMD_W
      ∨ (∃ b ∈ B.drop 6, isHex b = false)
    (malformed → decodeFrame B = .error .malformedCommand)
    ∧ (¬ malformed → ∃ s0 s1 s2 s3 n0 n1 n2 n3 v0 v1 v2 v3 k0 k1,
        B = [ENQ, s0, s1, s2, s3, CMD_W, n0, n1, n2, n3, v0, v1, v2, v3, k0, k1]
        ∧ decodeFrame B =
          (if unhex2 k0 k1 = ckCompute ((B.drop 1).take 13)
            then .ok (.cmd ⟨s0, s1, s2, s3⟩ (unhex4 n0 n1 n2 n3) (unhex4 v0 v1 v2 v3))
            else .error (.checksumMismatch (unhex2 k0 k1) (ckCompute ((B.drop 1).take 13))))))
  ∧ (∀ B : List Byte, B.head? ≠ some ENQ → B.head? ≠ some ACK → B.head? ≠ some NAK →
      decodeFrame B = .error .malformedFrame)

/-- 41_frame_codec.md R134: `DECODE_ACK`. -/
def Obligations.DecodeAckChecks : Prop :=
  ∀ (k : AckKind) (B : List Byte), B.head? = some k.byte →
    (B.length = 5 → (∀ b ∈ B.drop 1, isDigit b = true) →
      ∃ s0 s1 s2 s3, B = [k.byte, s0, s1, s2, s3] ∧ decodeFrame B = .ok (.ackFrame k ⟨s0, s1, s2, s3⟩))
    ∧ (B.length ≠ 5 ∨ (∃ b ∈ B.drop 1, isDigit b = false) → decodeFrame B = .error .malformedAck)

/-! ## A step runs the decoded instruction -/

/-- When `X-FRAME` is next, the step is `exec` of the frame at the head of `fq`; when a host word is next, the step is
`exec` of the operation it decodes to. Around `exec` a step removes its turn from the schedule and ends the last answer
on the host port (45_session_rx.md R221, 46_session_tx.md R260). The schedule and its turns are the model's (log 2): after
`X-FRAME` the turn is `A-SESS`'s, after a host operation `A-LINK`'s. -/
def Obligations.StepRunsDecodedInstruction : Prop :=
  (∀ (s : State) (r : List Action) (f : Frame) (q : List Frame), s.sched = .xFrame :: r → s.fq = f :: q →
    step s = exec (classify s.cfg f) { s with sched := r, phase := .session, hostReply := none })
  ∧ (∀ (s : State) (r : List Action) (w : BitVec 36) (i : Instr), s.sched = .host w :: r → decodeHop w = .ok i →
    step s = exec i { s with sched := r, phase := .link, hostReply := none })

/-- When the bytes at the scan position decode to an instruction and the frame queue is empty, `S-EMIT` and then
`X-FRAME` run exactly that instruction, on the state with the bytes consumed, the scan position moved past them and the
one event of the scanner (43_link_scanner.md R193, 45_session_rx.md R221). -/
def Obligations.FrameBytesRunAsDecoded : Prop :=
  ∀ (s : State) (b : Byte) (B q : List Byte) (n : Nat) (f : Frame) (i : Instr) (r : List Action),
    linkUp s = true → s.rxBuf = (b :: B) ++ q → startLen s.cfg b = some n → (b :: B).length = n →
    decodeFrame (b :: B) = .ok f → decode s.cfg (b :: B) = .ok i → s.fq = [] → 1 ≤ s.cfg.fqDepth →
    s.sched = .sEmit :: .xFrame :: r →
    ∃ t, step s = .next t
      ∧ t = { s with
              rxBuf := q
              scanPc := s.scanPc + BitVec.ofNat 32 n
              fq := [f]
              events := s.events ++ [.frame f s.scanPc]
              hostReply := none
              sched := .xFrame :: r
              phase := .link }
      ∧ step t = exec i { t with sched := r, phase := .session }

/-! ## What every frame has in common -/

/-- A frame that `X-FRAME` may not execute yet, for want of room in `txq` or of the link, waits and nothing changes
(45_session_rx.md R220 and its decision D15; 60_exceptions.md R321; that `exec` of a frame is one `X-FRAME` step is log 7,
and that it asks for the link is log 6). -/
def Obligations.FrameWaitsUntilReady : Prop :=
  ∀ (s : State) (f : Frame), (linkUp s = false ∨ s.cfg.txqDepth < s.txq.length + 2) →
    exec (classify s.cfg f) s = .next s

/-- A CommandFrame for another station, whatever its data number, gives one event and nothing else (45_session_rx.md
R225, the spec's decision D17). -/
def Obligations.FrameForAnotherStationIsIgnored : Prop :=
  ∀ (s : State) (st : Station) (dn v : W16), linkUp s = true → s.txq.length + 2 ≤ s.cfg.txqDepth → st ≠ s.cfg.ownId →
    exec (classify s.cfg (.cmd st dn v)) s
      = .next { s with fq := s.fq.tail, events := s.events ++ [.ignored st dn v] }

/-- A duplicate (45_session_rx.md R227; the ACK is the spec's decision D17): whatever its data number the frame
is acknowledged, reported as a duplicate and not executed, and the dedup table is not written (44_dedup.md R211 arm (c)). -/
def Obligations.DuplicateIsAckedAndNotExecuted : Prop :=
  ∀ (s : State) (dn v : W16), linkUp s = true → s.txq.length + 2 ≤ s.cfg.txqDepth → isDuplicate dn v s = true →
    exec (classify s.cfg (.cmd s.cfg.ownId dn v)) s
      = .next { s with
                fq := s.fq.tail
                txq := s.txq ++ [encodeAck .ack s.cfg.ownId]
                events := s.events ++ [.ackSent, .duplicate dn v] }

/-- The role check (45_session_rx.md R237, the spec's decision D25; for `FLOOR_CMD` and `DOOR_CMD` D26 too): a frame of a
checked data number that the role does not consume is acknowledged and entered in the table, and writes no other
register. -/
def Obligations.UnconsumedFrameIsOnlyReported : Prop :=
  ∀ (s : State) (st : Station) (dn v : W16), s.cfg.ok = true → Fresh s st dn v → consumes s.cfg dn = false →
    (dn ∈ baseDns ∨ (s.cfg.handshakeEn = true ∧ (dn = s.cfg.dnFloorCmd ∨ dn = s.cfg.dnDoorCmd))) →
    exec (classify s.cfg (.cmd st dn v)) s = .next (withEvents (afterReport s dn v) [.unhandled dn v])

/-- The capability table (60_exceptions.md R320, the spec's decision D25; the handshake rows D26 too), row by row, for both
roles. -/
def Obligations.CapabilityTable : Prop :=
  ∀ (c : Config) (dn : W16), c.ok = true →
    (dn ∈ ([0x0001, 0x0002, 0x0003] : List W16) →
      (emits c dn = true ↔ c.role = .dataSource) ∧ (consumes c dn = true ↔ c.role = .controller))
    ∧ (dn ∈ ([0x0010, 0x0011] : List W16) →
      (emits c dn = true ↔ c.role = .controller) ∧ (consumes c dn = true ↔ c.role = .dataSource))
    ∧ (c.handshakeEn = true → dn ∈ [c.dnPing, c.dnStatusReq, c.dnControlReq] →
      emits c dn = true ∧ consumes c dn = true)
    ∧ (c.handshakeEn = true → dn ∈ [c.dnPong, c.dnStatusRsp, c.dnControlAck] →
      emits c dn = false ∧ consumes c dn = true)
    ∧ (c.handshakeEn = true → dn ∈ [c.dnFloorCmd, c.dnDoorCmd] →
      (emits c dn = true ↔ c.role = .controller) ∧ (consumes c dn = true ↔ c.role = .dataSource))
    ∧ (c.knownDn dn = false → emits c dn = false ∧ consumes c dn = false)

/-! ## Reports

The hypotheses `Fresh` of this section and of the next two say that the frame is executed (Safety.lean). The next state is
given whole, so each statement includes the common part: the ACK queued before it (the spec's decision D17), the dedup
entry and the two events (`afterReport`). The role named in a statement is the one that consumes the frame (the spec's
decision D25); `UnconsumedFrameIsOnlyReported` has the other. -/

/-- `CUR_FLOOR` (45_session_rx.md R229; that it never is an arrival is the spec's decision D24). -/
def Obligations.CurrentFloorReport : Prop :=
  ∀ (s : State) (st : Station) (v : W16), Fresh s st 0x0001 v → s.cfg.role = .controller →
    exec (.curFloor st v) s = .next (withEvents { afterReport s 0x0001 v with currentFloor := v }
      (if v = s.currentFloor then [] else [.changed .currentFloor s.currentFloor v]))

/-- A new target (45_session_rx.md R230; the common part and the role are the spec's decisions D17 and D25, and that
`moving` follows the target is D23, 10_state.md R28). -/
def Obligations.TargetFloorReport : Prop :=
  ∀ (s : State) (st : Station) (v : W16), v ≠ 0x0000 → ¬ (s.cfg.arriveOnEqual = true ∧ v = s.currentFloor) →
    Fresh s st 0x0002 v → s.cfg.role = .controller →
    exec (.tgtFloor st v) s = .next (withEvents { afterReport s 0x0002 v with targetFloor := some v, moving := true }
      (if s.targetFloor = some v then [] else [.changed .targetFloor (s.targetFloor.getD 0x0000) v]))

/-- Immediate arrival (45_session_rx.md R232, the spec's decision D24; that `moving` follows the target is D23,
10_state.md R28). -/
def Obligations.TargetEqualToCurrentFloorArrives : Prop :=
  ∀ (s : State) (st : Station), s.currentFloor ≠ 0x0000 → s.cfg.arriveOnEqual = true →
    Fresh s st 0x0002 s.currentFloor → s.cfg.role = .controller →
    exec (.tgtFloor st s.currentFloor) s
      = .next (withEvents { afterReport s 0x0002 s.currentFloor with targetFloor := none, moving := false }
          [.arrival s.currentFloor])

/-- The none sentinel is an arrival exactly when a target is pending (45_session_rx.md R231; the common part and the role
are the spec's decisions D17 and D25, and that `moving` follows the target is D23, 10_state.md R28). -/
def Obligations.NoTargetReportArrives : Prop :=
  ∀ (s : State) (st : Station), Fresh s st 0x0002 0x0000 → s.cfg.role = .controller →
    (∀ t, s.targetFloor = some t →
      exec (.tgtNone st) s
        = .next (withEvents
            { afterReport s 0x0002 0x0000 with currentFloor := t, targetFloor := none, moving := false }
            [.arrival t]))
    ∧ (s.targetFloor = none → exec (.tgtNone st) s = .next (afterReport s 0x0002 0x0000))

/-- `LOAD` (45_session_rx.md R233; the common part and the role are the spec's decisions D17 and D25). -/
def Obligations.LoadWeightReport : Prop :=
  ∀ (s : State) (st : Station) (v : W16), Fresh s st 0x0003 v → s.cfg.role = .controller →
    exec (.load st v) s = .next (withEvents { afterReport s 0x0003 v with loadWeight := v }
      (if v = s.loadWeight then [] else [.changed .loadWeight s.loadWeight v]))

/-! ## Commands -/

/-- `FLOOR_SET` and `FLOOR_CMD` hand the floor to the host and write no register of the status (45_session_rx.md R234,
R246, the spec's decisions D25 and, for `FLOOR_CMD`, D26). -/
def Obligations.FloorCommandsGoToTheHost : Prop :=
  (∀ (s : State) (st : Station) (v : W16), Fresh s st 0x0010 v → s.cfg.role = .dataSource →
    exec (.floorSet st v) s = .next (withEvents (afterReport s 0x0010 v) [.floorCmd v]))
  ∧ (∀ (s : State) (st : Station) (v : W16), Fresh s st s.cfg.dnFloorCmd v → s.cfg.role = .dataSource →
    s.cfg.handshakeEn = true →
    exec (.floorCmd st v) s = .next (withEvents (afterReport s s.cfg.dnFloorCmd v) [.floorCmd v]))

/-- `DOOR_STOP`, `DOOR_OPEN`, `DOOR_CLOSE` write `door_status` 0, 1, 2 (45_session_rx.md R235, 30_encoding.md R109; that
the value is recorded there is the spec's decision D23; R235 rests on its decision D30 as well). -/
def Obligations.DoorCommandsSetTheDoor : Prop :=
  ∀ (s : State) (st : Station), s.cfg.role = .dataSource →
    (Fresh s st 0x0011 0x0000 → exec (.doorStop st) s = .next (withEvents
      { afterReport s 0x0011 0x0000 with doorStatus := 0 }
      ((if s.doorStatus = 0 then [] else [.changed .doorStatus (s.doorStatus.setWidth 16) 0]) ++ [.doorCmd 0x0000])))
    ∧ (Fresh s st 0x0011 0x0001 → exec (.doorOpen st) s = .next (withEvents
      { afterReport s 0x0011 0x0001 with doorStatus := 1 }
      ((if s.doorStatus = 1 then [] else [.changed .doorStatus (s.doorStatus.setWidth 16) 1]) ++ [.doorCmd 0x0001])))
    ∧ (Fresh s st 0x0011 0x0002 → exec (.doorClose st) s = .next (withEvents
      { afterReport s 0x0011 0x0002 with doorStatus := 2 }
      ((if s.doorStatus = 2 then [] else [.changed .doorStatus (s.doorStatus.setWidth 16) 2]) ++ [.doorCmd 0x0002])))

/-- `DOOR_CTL` with a reserved value writes no register (45_session_rx.md R235, 30_encoding.md R105, the spec's decision
D30); `DOOR_CMD` does what `DOOR_CTL` does with its own data number in the event (R247, with R240 the spec's decision
D26), and that the value is recorded in `door_status` is the spec's decision D23. -/
def Obligations.ReservedDoorValueAndDoorCmd : Prop :=
  (∀ (s : State) (st : Station) (v : W16), 0x0002 < v → Fresh s st 0x0011 v → s.cfg.role = .dataSource →
    exec (.doorCtl st v) s = .next (withEvents (afterReport s 0x0011 v) [.reservedValue 0x0011 v]))
  ∧ (∀ (s : State) (st : Station) (v : W16), Fresh s st s.cfg.dnDoorCmd v → s.cfg.role = .dataSource →
    s.cfg.handshakeEn = true →
    exec (.doorCmd st v) s = .next
      (if 0x0002 < v then withEvents (afterReport s s.cfg.dnDoorCmd v) [.reservedValue s.cfg.dnDoorCmd v]
       else withEvents { afterReport s s.cfg.dnDoorCmd v with doorStatus := BitVec.ofNat 2 v.toNat }
        ((if s.doorStatus.toNat = v.toNat then []
          else [.changed .doorStatus (s.doorStatus.setWidth 16) v]) ++ [.doorCmd v])))

/-- `UNKNOWN_DN`: acknowledged, entered in the dedup table, and no register written (45_session_rx.md R236, the spec's
decision D30). -/
def Obligations.UnknownDataNumberWritesNothing : Prop :=
  ∀ (s : State) (st : Station) (dn v : W16), Fresh s st dn v →
    exec (.unknownDn st dn v) s = .next (withEvents (afterReport s dn v) [.unknownDn dn v])

/-! ## The handshake -/

/-- 45_session_rx.md R241, R242, R243: a request is answered after its ACK, with whatever value `RSP_VALUE` gives, and
moves the state one place forward from the one state named (section 5 of that file is the spec's decision D26). -/
def Obligations.HandshakeRequestsAreAnswered : Prop :=
  ∀ (s : State) (st : Station) (v : W16),
    (Fresh s st s.cfg.dnPing v → exec (.ping st v) s = .next (withEvents
      { afterReport s s.cfg.dnPing v with
        txq := s.txq ++ [encodeAck .ack s.cfg.ownId,
          encodeCmd s.cfg.peerId s.cfg.dnPong (s.cfg.response s.cfg.dnPing v (elevatorStatus s))]
        sessState := if s.sessState = .idle then .handshaking else s.sessState }
      ([.responseSent s.cfg.dnPong] ++ (if s.sessState = .idle then [.sessState .idle .handshaking] else []))))
    ∧ (Fresh s st s.cfg.dnStatusReq v → exec (.statusReq st v) s = .next (withEvents
      { afterReport s s.cfg.dnStatusReq v with
        txq := s.txq ++ [encodeAck .ack s.cfg.ownId,
          encodeCmd s.cfg.peerId s.cfg.dnStatusRsp (s.cfg.response s.cfg.dnStatusReq v (elevatorStatus s))]
        sessState := if s.sessState = .handshaking then .linked else s.sessState }
      ([.responseSent s.cfg.dnStatusRsp]
        ++ (if s.sessState = .handshaking then [.sessState .handshaking .linked] else []))))
    ∧ (Fresh s st s.cfg.dnControlReq v → exec (.controlReq st v) s = .next (withEvents
      { afterReport s s.cfg.dnControlReq v with
        txq := s.txq ++ [encodeAck .ack s.cfg.ownId,
          encodeCmd s.cfg.peerId s.cfg.dnControlAck (s.cfg.response s.cfg.dnControlReq v (elevatorStatus s))]
        sessState := if s.sessState = .linked then .controlling else s.sessState }
      ([.responseSent s.cfg.dnControlAck]
        ++ (if s.sessState = .linked then [.sessState .linked .controlling] else []))))

/-- A response completes the pending exchange of its own request and of no other, and moves the state one place forward
from the one state named (45_session_rx.md R244, the spec's decision D26; 46_session_tx.md R267). -/
def Obligations.HandshakeResponsesComplete : Prop :=
  ∀ (s : State) (st : Station) (v : W16), s.cfg.ok = true → s.cfg.handshakeEn = true →
    (Fresh s st s.cfg.dnPong v → exec (.pong st v) s = .next (withEvents
      { afterReport s s.cfg.dnPong v with
        pendValid := s.pendValid && s.pendDn != s.cfg.dnPing
        retryCnt := if s.pendValid = true ∧ s.pendDn = s.cfg.dnPing then 0 else s.retryCnt
        sessState := if s.sessState = .idle then .handshaking else s.sessState }
      ((if s.pendValid = true ∧ s.pendDn = s.cfg.dnPing then [.cmdOk s.pendDn s.pendValue s.retryCnt] else [])
        ++ (if s.sessState = .idle then [.sessState .idle .handshaking] else []))))
    ∧ (Fresh s st s.cfg.dnStatusRsp v → exec (.statusRsp st v) s = .next (withEvents
      { afterReport s s.cfg.dnStatusRsp v with
        pendValid := s.pendValid && s.pendDn != s.cfg.dnStatusReq
        retryCnt := if s.pendValid = true ∧ s.pendDn = s.cfg.dnStatusReq then 0 else s.retryCnt
        sessState := if s.sessState = .handshaking then .linked else s.sessState }
      ((if s.pendValid = true ∧ s.pendDn = s.cfg.dnStatusReq then [.cmdOk s.pendDn s.pendValue s.retryCnt] else [])
        ++ (if s.sessState = .handshaking then [.sessState .handshaking .linked] else []))))
    ∧ (Fresh s st s.cfg.dnControlAck v → exec (.controlAck st v) s = .next (withEvents
      { afterReport s s.cfg.dnControlAck v with
        pendValid := s.pendValid && s.pendDn != s.cfg.dnControlReq
        retryCnt := if s.pendValid = true ∧ s.pendDn = s.cfg.dnControlReq then 0 else s.retryCnt
        sessState := if s.sessState = .linked then .controlling else s.sessState }
      ((if s.pendValid = true ∧ s.pendDn = s.cfg.dnControlReq then [.cmdOk s.pendDn s.pendValue s.retryCnt] else [])
        ++ (if s.sessState = .linked then [.sessState .linked .controlling] else []))))

/-! ## Acknowledgement frames -/

/-- `ACK`: the peer's completes the pending exchange, any other is stray (45_session_rx.md R222, the spec's decision D18;
46_session_tx.md R267). `NAK`: an event and nothing else (R223). -/
def Obligations.AckCompletesAndNakChangesNothing : Prop :=
  (∀ (s : State) (st : Station), linkUp s = true → s.txq.length + 2 ≤ s.cfg.txqDepth →
    exec (.ack st) s = .next
      (if s.pendValid = true ∧ st = s.cfg.peerId
        then withEvents { s with fq := s.fq.tail, pendValid := false, retryCnt := 0 }
          [.cmdOk s.pendDn s.pendValue s.retryCnt]
        else withEvents { s with fq := s.fq.tail } [.strayAck st]))
  ∧ (∀ (s : State) (st : Station), linkUp s = true → s.txq.length + 2 ≤ s.cfg.txqDepth →
    exec (.nak st) s = .next (withEvents { s with fq := s.fq.tail } [.nak st]))

/-! ## Host operations -/

/-- `NOP` and `SNAPSHOT` change no register; the copy is the state's own (46_session_tx.md R261, R265, the spec's
decisions D3 and D29). -/
def Obligations.NopAndSnapshotChangeNoRegister : Prop :=
  (∀ s : State, exec .nop s = .next { s with hostReply := some ⟨0, none⟩ })
  ∧ (∀ s : State, exec .snapshot s = .next { s with
      hostReply := some ⟨0, some ⟨s.currentFloor, s.targetFloor, s.loadWeight, s.moving, s.doorStatus, s.linkState,
        s.failCnt, s.sessState, s.pendValid, s.retryCnt⟩⟩ })

/-- `START`, and its refusal when already started (46_session_tx.md R262, the spec's decision D28). -/
def Obligations.StartBeginsTheSession : Prop :=
  (∀ s : State, s.linkEnable = true →
    exec .start s = .next (withEvents { s with hostReply := some ⟨15, none⟩ } [.error .badRequest]))
  ∧ (∀ s : State, s.linkEnable = false →
    exec .start s = .next (withEvents
      { s with
        currentFloor := s.cfg.groundFloor
        targetFloor := none
        loadWeight := 0x0000
        moving := false
        doorStatus := 3
        dedup := []
        sessState := .idle
        pendValid := false
        pendDn := 0x0000
        pendValue := 0x0000
        retryCnt := 0
        ackT0 := 0
        rxBuf := []
        fq := []
        txq := []
        scanPc := 0
        txIdx := 0
        txActive := false
        failCnt := 0
        attemptCnt := 0
        backoffDelay := 0
        backoffT0 := s.now
        linkEnable := true
        hostReply := some ⟨0, none⟩ } [.started]))

/-- `STOP`: every register but `now` at its reset value, the device closed if it was not, the pending exchange
cancelled (46_session_tx.md R263, 70_reset_and_hazards.md R342, the spec's decision D28). That the event trace, the bytes
on the line, the device's pulses and the schedule are kept is the model's choice (log 5). -/
def Obligations.StopResetsAllButTime : Prop :=
  ∀ s : State, exec .stop s = .next
    { State.resetWith s.cfg with
      now := s.now
      lineOut := s.lineOut
      sched := s.sched
      devOut := s.devOut ++ (if s.linkState = .disconnected then [] else [.close])
      events := s.events ++ (if s.pendValid then [.cmdCancelled s.pendDn s.pendValue] else []) ++ [.stopped]
      hostReply := some ⟨0, none⟩ }

/-- `ISSUE`: the refusals in the order role, link, busy, none of them changing a register, and the exchange that an
accepted one begins (46_session_tx.md R264, the spec's decisions D19, D20, D25). -/
def Obligations.IssueChecksThenBegins : Prop :=
  ∀ (s : State) (dn v : W16),
    (emits s.cfg dn = false →
      exec (.issue dn v) s = .next (withEvents { s with hostReply := some ⟨11, none⟩ } [.error .roleViolation]))
    ∧ (emits s.cfg dn = true → linkUp s = false →
      exec (.issue dn v) s = .next (withEvents { s with hostReply := some ⟨8, none⟩ } [.error .linkNotReady]))
    ∧ (emits s.cfg dn = true → linkUp s = true → (s.pendValid = true ∨ s.cfg.txqDepth ≤ s.txq.length) →
      exec (.issue dn v) s = .next (withEvents { s with hostReply := some ⟨10, none⟩ } [.error .busy]))
    ∧ (emits s.cfg dn = true → linkUp s = true → s.pendValid = false → s.txq.length < s.cfg.txqDepth →
      exec (.issue dn v) s = .next (withEvents
        { s with
          txq := s.txq ++ [encodeCmd s.cfg.peerId dn v]
          pendValid := true
          pendDn := dn
          pendValue := v
          retryCnt := 0
          ackT0 := s.now
          hostReply := some ⟨0, none⟩ } [.issued dn v]))

/-- A host word with a reserved operation code is refused with `BadRequest` and changes no register (60_exceptions.md
R317, the spec's decision D3). -/
def Obligations.ReservedHostWordIsRefused : Prop :=
  ∀ (s : State) (w : BitVec 36) (r : List Action), s.sched = .host w :: r → 5 ≤ w.toNat / 2 ^ 32 →
    step s = .next (withEvents { s with sched := r, phase := .link, hostReply := some ⟨15, none⟩ } [.error .badRequest])

/-! ## The Deduplicator -/

/-- `IS_DUPLICATE`: its four arms, the answer and the table after it (44_dedup.md R211; arm (d) and the strict comparison
are the spec's decision D22). -/
def Obligations.DedupFourArms : Prop :=
  ∀ (s : State) (dn v : W16),
    (dedupRead s.dedup dn = none →
      isDuplicate dn v s = false ∧ dedupRead (dedupUpdate dn v s).dedup dn = some (v, s.now))
    ∧ (∀ v0 t0, dedupRead s.dedup dn = some (v0, t0) →
      (s.cfg.dedupWindow < (s.now - t0).toNat →
        isDuplicate dn v s = false ∧ dedupRead (dedupUpdate dn v s).dedup dn = some (v, s.now))
      ∧ ((s.now - t0).toNat ≤ s.cfg.dedupWindow → v0 = v → isDuplicate dn v s = true ∧ dedupUpdate dn v s = s)
      ∧ ((s.now - t0).toNat ≤ s.cfg.dedupWindow → v0 ≠ v →
        isDuplicate dn v s = false ∧ dedupRead (dedupUpdate dn v s).dedup dn = some (v, s.now)))
    ∧ (∀ d, d ≠ dn → dedupRead (dedupUpdate dn v s).dedup d = dedupRead s.dedup d)
    ∧ dedupUpdate dn v s = { s with dedup := (dedupUpdate dn v s).dedup }

/-- A repeat of a frame that was executed is a duplicate up to and including the end of the window, counted from the
first, and is reported again after it (44_dedup.md R211, R214). -/
def Obligations.RepeatIsDuplicateUntilTheWindowLapses : Prop :=
  ∀ (s : State) (dn v : W16) (k : Nat), s.cfg.ok = true → isDuplicate dn v s = false → k < 2 ^ 32 →
    (isDuplicate dn v { dedupUpdate dn v s with now := s.now + BitVec.ofNat 32 k } = true ↔ k ≤ s.cfg.dedupWindow)

/-! ## The link -/

/-- `L-OPEN` (43_link_scanner.md R172, the spec's decision D8). That the attempt number of its event is `attempt_cnt + 1`
as an exact 32-bit number, 0x10000 after a saturated `attempt_cnt`, is the model's reading (log 10). -/
def Obligations.OpenAttemptAfterBackoff : Prop :=
  ∀ (s : State) (r : List Action), s.sched = .lOpen :: r →
    step s = .next
      (if s.linkState = .disconnected ∧ s.linkEnable = true ∧ s.backoffDelay ≤ s.now - s.backoffT0
        then withEvents { beginStep s with linkState := .connecting, devOut := s.devOut ++ [.openReq] }
          [.openAttempt (s.attemptCnt.setWidth 32 + 1)]
        else beginStep s)

/-- 43_link_scanner.md R173: `DevOpenOk`. -/
def Obligations.DeviceOpens : Prop :=
  ∀ (s : State) (r : List Action), s.sched = .devOpenOk :: r →
    step s = .next
      (if s.linkState = .connecting
        then withEvents
          { beginStep s with
            linkState := .connected
            failCnt := 0
            attemptCnt := 0
            backoffDelay := 0
            rxBuf := []
            scanPc := 0
            lastRxTime := s.now } [.linkUp]
        else beginStep s)

/-- `DevOpenFail`, with the reconnect cap (43_link_scanner.md R174). That the cap counts attempts, so that the `M`-th
failure reaches it, is the spec's decision D9 (R180); the delay after a failure below the cap is its decision D8 (R181). -/
def Obligations.DeviceOpenFails : Prop :=
  ∀ (s : State) (r : List Action), s.sched = .devOpenFail :: r →
    (s.linkState ≠ .connecting → step s = .next (beginStep s))
    ∧ (s.linkState = .connecting → ∀ k : W16, k.toNat = min (s.attemptCnt.toNat + 1) (2 ^ 16 - 1) →
      ((∀ m, s.cfg.maxReconnect = some m → k.toNat < m) →
        step s = .next (withEvents
          { beginStep s with
            linkState := .disconnected
            attemptCnt := k
            backoffDelay := nextDelay s.cfg s.backoffDelay
            backoffT0 := s.now } [.openFail k]))
      ∧ (∀ m, s.cfg.maxReconnect = some m → m ≤ k.toNat →
        step s = .next (withEvents
          { beginStep s with linkState := .disconnected, attemptCnt := k, linkEnable := false }
          [.openFail k, .error (.maxReconnectExceeded k)])))

/-- The backoff law: the delays after a link loss double from `BACKOFF_MIN` and stop at `BACKOFF_MAX`; after `START` the
first failure gives `BACKOFF_MIN` (43_link_scanner.md R181, the spec's decision D8). -/
def Obligations.BackoffDoublesUpToItsCap : Prop :=
  ∀ c : Config, c.ok = true →
    (∀ n, (delayAfter c n).toNat = min c.backoffMax (c.backoffMin * 2 ^ n))
    ∧ (nextDelay c 0).toNat = c.backoffMin

/-- `DevError`: a link loss while the link is up, an open failure while Connecting, nothing while Disconnected
(43_link_scanner.md R186, R182, the spec's decision D16). -/
def Obligations.DeviceErrorTakesTheLinkDown : Prop :=
  ∀ (s : State) (r : List Action), s.sched = .devError :: r →
    (linkUp s = true →
      step s = .next (afterLinkDown .device (withEvents (beginStep s) [.error (.linkIOError .device)])))
    ∧ (s.linkState = .connecting → step s = step { s with sched := .devOpenFail :: r })
    ∧ (s.linkState = .disconnected → step s = .next (beginStep s))

/-- `RxChar` of a good character: nothing while the link is not up; else the byte is appended and the failures
cleared (43_link_scanner.md R183, the spec's decisions D6 and D10). -/
def Obligations.GoodCharacterIsAppended : Prop :=
  ∀ (s : State) (b : Byte) (r : List Action), s.sched = .rxChar b false false :: r →
    (linkUp s = false → step s = .next (beginStep s))
    ∧ (linkUp s = true → s.rxBuf.length < s.cfg.rxbufSize →
      step s = .next
        { beginStep s with lastRxTime := s.now, rxBuf := s.rxBuf ++ [b], failCnt := 0, linkState := .connected })

/-- A soft failure, below the limit and at it, for a character with an error and for one that finds the buffer full
(43_link_scanner.md R183, R184, R185, with the spec's decisions D6, D7, D10 and D15; what a link loss does is R182). With
`PARITY` None a parity flag is taken as 0, the model's reading of 42_serial_phy.md R153 (log 13). -/
def Obligations.SoftFailuresCountToTheLimit : Prop :=
  ∀ (s : State) (b : Byte) (p f : Bool) (r : List Action) (e : Error), s.sched = .rxChar b p f :: r →
    linkUp s = true →
    ((f = true ∧ e = .rxCharError b (p && s.cfg.parity == .even) f)
      ∨ (p = true ∧ s.cfg.parity = .even ∧ e = .rxCharError b p f)
      ∨ (p = false ∧ f = false ∧ s.cfg.rxbufSize ≤ s.rxBuf.length ∧ e = .rxOverrun b)) →
    (s.failCnt.toNat + 1 < s.cfg.failLimit →
      step s = .next (withEvents
        { beginStep s with lastRxTime := s.now, failCnt := s.failCnt + 1, linkState := .degraded } [.error e]))
    ∧ (s.cfg.failLimit ≤ s.failCnt.toNat + 1 →
      step s = .next (afterLinkDown .failLimit
        (withEvents { beginStep s with lastRxTime := s.now } [.error e, .error (.linkIOError .failLimit)])))

/-- `L-IDLE`: more than the idle duration without a character recycles the link, exactly the duration does not
(43_link_scanner.md R187, the spec's decision D10). -/
def Obligations.IdleLineRecyclesTheLink : Prop :=
  ∀ (s : State) (r : List Action), s.sched = .lIdle :: r →
    (∀ T, s.cfg.idleTimeout = some T → linkUp s = true → T < (s.now - s.lastRxTime).toNat →
      step s = .next (afterLinkDown .idle
        (withEvents (beginStep s) [.error (.idleTimeout (s.now - s.lastRxTime))])))
    ∧ ((s.cfg.idleTimeout = none ∨ linkUp s = false
        ∨ ∃ T, s.cfg.idleTimeout = some T ∧ (s.now - s.lastRxTime).toNat ≤ T) →
      step s = .next (beginStep s))

/-! ## The scanner -/

/-- 43_link_scanner.md R191 and R193, with R192, R194 to R196: on a non-empty buffer exactly one of skip, hold, emit,
stall and reject applies, and each scanner step does what its rule says where it is enabled and nothing elsewhere (the
start bytes and the one byte dropped on a mismatch are the spec's decisions D11 and D12). A rejected start byte raises
the error that `DECODE` answers, one of three, with what 60_exceptions.md R304 to R306 record of it. -/
def Obligations.ScannerTakesExactlyItsEnabledStep : Prop :=
  ∀ (s : State) (b : Byte) (q : List Byte), linkUp s = true → s.rxBuf = b :: q →
    (b ≠ ENQ → b ≠ ACK → (b = NAK → s.cfg.scanNak = false) →
      sSkip s = withEvents { s with rxBuf := q, scanPc := s.scanPc + 1 } [.error (.malformedFrame b s.scanPc)]
      ∧ sEmit s = s ∧ sReject s = s)
    ∧ (∀ n, ((b = ENQ ∧ n = 16) ∨ (b = ACK ∧ n = 5) ∨ (b = NAK ∧ s.cfg.scanNak = true ∧ n = 5)) →
      sSkip s = s
      ∧ (s.rxBuf.length < n → sEmit s = s ∧ sReject s = s)
      ∧ (n ≤ s.rxBuf.length →
        (∀ f, decodeFrame (s.rxBuf.take n) = .ok f → sReject s = s
          ∧ (s.cfg.fqDepth ≤ s.fq.length → sEmit s = s)
          ∧ (s.fq.length < s.cfg.fqDepth →
            sEmit s = withEvents
              { s with
                fq := s.fq ++ [f]
                rxBuf := s.rxBuf.drop n
                scanPc := s.scanPc + BitVec.ofNat 32 n } [.frame f s.scanPc]))
        ∧ (∀ e, decodeFrame (s.rxBuf.take n) = .error e → sEmit s = s)
        ∧ (decodeFrame (s.rxBuf.take n) = .error .malformedCommand →
          sReject s = withEvents { s with rxBuf := q, scanPc := s.scanPc + 1 } [.error (.malformedCommand s.scanPc)])
        ∧ (∀ claimed computed, decodeFrame (s.rxBuf.take n) = .error (.checksumMismatch claimed computed) →
          sReject s = withEvents { s with rxBuf := q, scanPc := s.scanPc + 1 }
            [.error (.checksumMismatch s.scanPc claimed computed)])
        ∧ (decodeFrame (s.rxBuf.take n) = .error .malformedAck →
          sReject s = withEvents { s with rxBuf := q, scanPc := s.scanPc + 1 } [.error (.malformedAck s.scanPc)])
        ∧ decodeFrame (s.rxBuf.take n) ≠ .error .malformedFrame))

/-- Progress: after at most `rx_len` scanner steps the scanner rests, and each step it takes removes a byte
(43_link_scanner.md R197, derived there). -/
def Obligations.ScannerComesToRest : Prop :=
  (∀ s : State, scanAction s ≠ none → (scanStep s).rxBuf.length < s.rxBuf.length)
  ∧ (∀ s : State, scanAction (scanSteps s.rxBuf.length s) = none)

/-! ## The transmitter and the line -/

/-- `TxByte` sends the next byte of the head frame and pops the frame after its last; while the link is not up or `txq`
is empty it sends nothing and changes nothing (42_serial_phy.md R152). -/
def Obligations.TransmitterSendsTheNextByte : Prop :=
  ∀ (s : State) (r : List Action), s.sched = .txByte :: r →
    (∀ (F : List Byte) (q : List (List Byte)) (b : Byte), linkUp s = true → s.txq = F :: q →
      F[s.txIdx.toNat]? = some b →
      step s = .next
        (if s.txIdx.toNat + 1 = F.length
          then { beginStep s with lineOut := s.lineOut ++ [b], txq := q, txIdx := 0, txActive := false }
          else { beginStep s with lineOut := s.lineOut ++ [b], txIdx := s.txIdx + 1, txActive := true }))
    ∧ (linkUp s = false ∨ s.txq = [] → step s = .next (beginStep s))

/-- Transmit order: a `TxByte` step moves one byte from what is queued to the line and loses none; `SEND` queues its frame
behind every byte not yet sent (20_memory.md R77). -/
def Obligations.LineCarriesFramesInSendOrder : Prop :=
  (∀ (s t : State) (r : List Action), Inv s → linkUp s = true → s.txq ≠ [] → s.sched = .txByte :: r → step s = .next t →
    t.lineOut ++ unsentBytes t = s.lineOut ++ unsentBytes s ∧ t.lineOut.length = s.lineOut.length + 1)
  ∧ (∀ (s : State) (B : List Byte), Inv s → linkUp s = true → unsentBytes (send B s) = unsentBytes s ++ B)

/-- The character format: what is sent is received without error, the ones of data and parity are even in number, a
flipped parity bit is a parity error and a stop bit of 0 a framing error (42_serial_phy.md R150, R153, from general
knowledge there). -/
def Obligations.CharacterIsReceivedAsSent : Prop :=
  (∀ (p : Parity) (b : Byte), receiveChar p (charBits p b) = some (b, false, false))
  ∧ (∀ b : Byte, (charBits .even b).length = 11 ∧ (charBits .off b).length = 10
    ∧ (dataBits b ++ [parityBit b]).count true % 2 = 0
    ∧ receiveChar .even (false :: (dataBits b ++ [!parityBit b, true])) = some (b, true, false)
    ∧ receiveChar .even (false :: (dataBits b ++ [parityBit b, false])) = some (b, false, true)
    ∧ receiveChar .off (false :: (dataBits b ++ [false])) = some (b, false, true))

/-- A station's own frames, heard back, do no harm: a command is ignored, an ACK completes nothing (42_serial_phy.md R157,
derived there from the ids being different). -/
def Obligations.EchoOfOwnFramesIsHarmless : Prop :=
  ∀ s : State, s.cfg.ok = true → linkUp s = true → s.txq.length + 2 ≤ s.cfg.txqDepth →
    (∀ dn v : W16, ∃ i, decode s.cfg (encodeCmd s.cfg.peerId dn v) = .ok i
      ∧ exec i s = .next (withEvents { s with fq := s.fq.tail } [.ignored s.cfg.peerId dn v]))
    ∧ ∃ i, decode s.cfg (encodeAck .ack s.cfg.ownId) = .ok i
      ∧ exec i s = .next (withEvents { s with fq := s.fq.tail } [.strayAck s.cfg.ownId])

/-! ## The exchange -/

/-- `X-TIMEOUT`: the same sixteen bytes again while resends are left, then the end of the exchange with the link as it
was; and nothing where it is not enabled: before the timer has run out, while a frame waits in `fq`, while `txq` is full,
with nothing pending (45_session_rx.md R220, 46_session_tx.md R268, R269, R271, the spec's decisions D20 and D21). That
the link be up is 60_exceptions.md R321; R220 does not list it, and the model asks for it (log 6). -/
def Obligations.TimeoutResendsOrGivesUp : Prop :=
  ∀ (s : State) (r : List Action), s.sched = .xTimeout :: r →
    (linkUp s = true → s.pendValid = true → s.cfg.ackTimeout ≤ (s.now - s.ackT0).toNat → s.fq = [] →
      s.txq.length < s.cfg.txqDepth →
      (s.retryCnt.toNat < s.cfg.maxRetries →
        step s = .next (withEvents
          { beginStep s with
            txq := s.txq ++ [encodeCmd s.cfg.peerId s.pendDn s.pendValue]
            retryCnt := s.retryCnt + 1
            ackT0 := s.now }
          [.error (.ackTimeout s.pendDn s.retryCnt), .retry s.pendDn (s.retryCnt + 1)]))
      ∧ (s.cfg.maxRetries ≤ s.retryCnt.toNat →
        step s = .next (withEvents { beginStep s with pendValid := false, retryCnt := 0 }
          [.error (.ackTimeout s.pendDn s.retryCnt), .error (.retryExhausted s.pendDn s.pendValue)])))
    ∧ ((linkUp s = false ∨ s.pendValid = false ∨ (s.now - s.ackT0).toNat < s.cfg.ackTimeout ∨ s.fq ≠ []
        ∨ s.cfg.txqDepth ≤ s.txq.length) →
      step s = .next (beginStep s))

/-- An exchange that never gets its ACK: `MAX_RETRIES` resends of the same frame, each one timeout after the last, then
`RetryExhausted` once, at `(MAX_RETRIES + 1) × ACK_TIMEOUT` ticks, with the link, the session and the status as they
were (46_session_tx.md R272, derived there). The rounds are a device of the model: `silentRound` moves `now` by
`ACK_TIMEOUT` and empties `txq` at once, where the machine takes `Tick` and `TxByte` steps, and then takes the one step
`X-TIMEOUT`. -/
def Obligations.UnansweredExchangeEndsInRetryExhausted : Prop :=
  ∀ s : State, s.cfg.ok = true → linkUp s = true → s.pendValid = true → s.retryCnt = 0 → s.fq = [] → s.ackT0 = s.now →
    (∀ n, n ≤ s.cfg.maxRetries →
      let t := silentRounds n s
      t.pendValid = true ∧ t.retryCnt.toNat = n ∧ t.ackT0 = t.now
      ∧ t.now = s.now + BitVec.ofNat 32 (n * s.cfg.ackTimeout)
      ∧ (1 ≤ n → t.txq = [encodeCmd s.cfg.peerId s.pendDn s.pendValue])
      ∧ t.events = s.events ++ retryEvents s.pendDn n)
    ∧ (let t := silentRounds (s.cfg.maxRetries + 1) s
      t.pendValid = false ∧ t.retryCnt = 0 ∧ t.txq = []
      ∧ t.now = s.now + BitVec.ofNat 32 ((s.cfg.maxRetries + 1) * s.cfg.ackTimeout)
      ∧ t.events = s.events ++ retryEvents s.pendDn s.cfg.maxRetries
          ++ [.error (.ackTimeout s.pendDn (BitVec.ofNat 8 s.cfg.maxRetries)),
            .error (.retryExhausted s.pendDn s.pendValue)]
      ∧ t.linkState = s.linkState ∧ t.sessState = s.sessState ∧ elevatorStatus t = elevatorStatus s)

/-! ## The whole machine -/

/-- Reset gives every piece of state its value in the table of 70_reset_and_hazards.md R341, for every configuration, and
the step of the reset input leaves exactly that state (R340); the values that the table does not quote from the source
are the spec's decision D32 (R340). That `rst` keeps the bytes on the line, the device's pulses and the schedule is the
model's choice (log 5). -/
def Obligations.ResetValues : Prop :=
  (∀ c : Config,
    let s := State.resetWith c
    s.cfg = c ∧ s.now = 0 ∧ s.currentFloor = c.groundFloor ∧ s.targetFloor = none ∧ s.loadWeight = 0x0000
    ∧ s.doorStatus = 3 ∧ s.moving = false ∧ s.linkState = .disconnected ∧ s.failCnt = 0 ∧ s.linkEnable = false
    ∧ s.attemptCnt = 0 ∧ s.backoffT0 = 0 ∧ s.backoffDelay = 0 ∧ s.lastRxTime = 0 ∧ s.pendValid = false
    ∧ s.pendDn = 0x0000 ∧ s.pendValue = 0x0000 ∧ s.retryCnt = 0 ∧ s.ackT0 = 0 ∧ s.sessState = .idle
    ∧ (∀ dn, dedupRead s.dedup dn = none) ∧ s.rxBuf = [] ∧ s.scanPc = 0 ∧ s.fq = [] ∧ s.txq = []
    ∧ s.txActive = false ∧ s.txIdx = 0 ∧ s.events = [] ∧ s.hostReply = none)
  ∧ ∀ (s : State) (r : List Action), s.sched = .rst :: r →
    step s = .next { State.resetWith s.cfg with lineOut := s.lineOut, devOut := s.devOut, sched := r }

/-- The invariant holds after reset, for every configuration that meets its premises; the reset configuration does
(00_scope.md R8; its OPEN values are the model's choice, log 1). -/
def Obligations.ResetMeetsTheInvariant : Prop :=
  (∀ c : Config, c.ok = true → Inv (State.resetWith c)) ∧ Inv State.reset

/-- Every step of every agent keeps the invariant: the error count and the link mode, `moving` and the target, the command
slot, the bounds of the buffers and queues, what the queues hold, the transmitter's index, the table's canonical form
(10_state.md R25, R28, R33, R36, R40, R42, R43; 43_link_scanner.md R182; 45_session_rx.md R240). -/
def Obligations.StepKeepsTheInvariant : Prop :=
  ∀ s t : State, Inv s → step s = .next t → Inv t

/-- 60_exceptions.md R324: no error stops the block, the surfaced errors are codes 6 and 9, and the host port's answer is
0 or one of the four refusals. -/
def Obligations.NoErrorStopsTheBlock : Prop :=
  (∀ s : State, ∃ t, step s = .next t)
  ∧ (∀ e : Error, e.surfaced = true ↔ e.code = 6 ∨ e.code = 9)
  ∧ (∀ (s t : State) (a : HostReply), step s = .next t → t.hostReply = some a →
      a.status = 0 ∨ a.status = 8 ∨ a.status = 10 ∨ a.status = 11 ∨ a.status = 15)

/-- Who writes what: only `X-FRAME`, `START`, `STOP` and reset write ElevatorStatus; only steps of the link, the line and
the device, `STOP` and reset write `link_state` (20_memory.md R78). -/
def Obligations.OwnersWriteTheirRegisters : Prop :=
  (∀ s t : State, step s = .next t → elevatorStatus t ≠ elevatorStatus s →
    nextAction s = .xFrame ∨ nextAction s = .rst
      ∨ ∃ w, nextAction s = .host w ∧ (decodeHop w = .ok .start ∨ decodeHop w = .ok .stop))
  ∧ (∀ s t : State, step s = .next t → t.linkState ≠ s.linkState →
    nextAction s ≠ .tick ∧ nextAction s ≠ .xFrame ∧ nextAction s ≠ .xTimeout ∧ nextAction s ≠ .txByte
      ∧ ∀ w, nextAction s = .host w → decodeHop w = .ok .stop)

/-- `sess_state` moves one place forward, in an `X-FRAME` step alone, or back to Idle; no timeout of an exchange moves it
(45_session_rx.md R248). -/
def Obligations.SessionStateMovesOnePlace : Prop :=
  ∀ s t : State, step s = .next t → t.sessState ≠ s.sessState →
    nextAction s ≠ .xTimeout ∧ nextAction s ≠ .tick
    ∧ (t.sessState = .idle
      ∨ (nextAction s = .xFrame
        ∧ ((s.sessState = .idle ∧ t.sessState = .handshaking) ∨ (s.sessState = .handshaking ∧ t.sessState = .linked)
          ∨ (s.sessState = .linked ∧ t.sessState = .controlling))))

/-- The configuration never changes (10_state.md R38); `now` is written by `Tick`, which adds one modulo 2^32, and by
reset alone (10_state.md R22, 60_exceptions.md R330, the spec's decision D2). -/
def Obligations.TimeAndConfigurationWriters : Prop :=
  ∀ s t : State, step s = .next t →
    t.cfg = s.cfg
    ∧ (nextAction s = .tick → t = { beginStep s with now := s.now + 1 } ∧ t.now.toNat = (s.now.toNat + 1) % 2 ^ 32)
    ∧ (nextAction s ≠ .tick → nextAction s ≠ .rst → t.now = s.now)

/-- The event trace only grows, at its end, until reset empties it; the line is written by `TxByte` alone, one byte a
step (60_exceptions.md R302, 20_memory.md R77; that reset empties the trace is 70_reset_and_hazards.md R341). That reset
leaves `lineOut` as it was and that `STOP` keeps the trace are the model's choice (log 5). -/
def Obligations.OutputsOnlyGrow : Prop :=
  ∀ s t : State, step s = .next t →
    (nextAction s ≠ .rst → ∃ es, t.events = s.events ++ es)
    ∧ (nextAction s = .rst → t.events = [])
    ∧ (nextAction s ≠ .txByte → t.lineOut = s.lineOut)
    ∧ (nextAction s = .txByte → t.lineOut = s.lineOut ∨ ∃ b, t.lineOut = s.lineOut ++ [b])

/-- Stopped means silent: with the supervisor not started and the link Disconnected no step of the link, the line, the
device, the session or the transmitter changes anything, and the reference schedule only lets time pass
(46_session_tx.md R263, derived there; 70_reset_and_hazards.md R340; 60_exceptions.md R328; the schedule with a silent
environment is the model's, log 2). -/
def Obligations.StoppedBlockIsSilent : Prop :=
  ∀ s : State, s.linkEnable = false → s.linkState = .disconnected →
    (∀ (a : Action) (r : List Action), s.sched = a :: r → a.isTimeOrHost = false → step s = .next (beginStep s))
    ∧ referenceAction s = .tick
end

