-- ==== Sys2Proof/Laws/Codec.lean ====
section
/-! SUPPORT. The small lemmas of the codec: hexadecimal characters, lengths, fields of the host word. -/

namespace Sys2Proof

theorem hexval_hexchar (n : BitVec 4) : hexval (hexchar n) = n := by revert n; decide

theorem isHex_hexchar (n : BitVec 4) : isHex (hexchar n) = true := by revert n; decide

theorem unhex2_hexchar (v : Byte) : unhex2 (hexchar (v.extractLsb' 4 4)) (hexchar (v.extractLsb' 0 4)) = v := by
  simp only [unhex2, hexval_hexchar]
  revert v; decide

theorem unhex4_hexchar (v : W16) :
    unhex4 (hexchar (v.extractLsb' 12 4)) (hexchar (v.extractLsb' 8 4)) (hexchar (v.extractLsb' 4 4))
      (hexchar (v.extractLsb' 0 4)) = v := by
  simp only [unhex4, hexval_hexchar]
  have hi : ∀ i (h : i < 16), v[i] = v.getLsbD i := fun i h => (BitVec.getLsbD_eq_getElem h).symm
  ext i h
  simp only [BitVec.getElem_append, BitVec.getElem_extractLsb', hi]
  split
  · simp
  · split
    · congr 1; omega
    · split
      · congr 1; omega
      · congr 1; omega

@[simp] theorem length_hex2 (v : Byte) : (hex2 v).length = 2 := rfl
@[simp] theorem length_hex4 (v : W16) : (hex4 v).length = 4 := rfl
@[simp] theorem length_station (st : Station) : st.bytes.length = 4 := rfl
@[simp] theorem length_cmdBody (st : Station) (dn v : W16) : (cmdBody st dn v).length = 13 := rfl
@[simp] theorem length_encodeCmd (st : Station) (dn v : W16) : (encodeCmd st dn v).length = 16 := rfl
@[simp] theorem length_encodeAck (k : AckKind) (st : Station) : (encodeAck k st).length = 5 := rfl

/-- `DECODE` of an AckFrame's bytes looks at the station alone. -/
theorem decodeFrame_encodeAck (k : AckKind) (st : Station) :
    decodeFrame (encodeAck k st)
      = if st.isDigits then .ok (.ackFrame k st) else .error .malformedAck := by
  cases k <;> cases h : st.isDigits <;>
    simp_all [decodeFrame, encodeAck, AckKind.byte, decodeAck, Station.bytes, Station.isDigits, ENQ, ACK, NAK]

/-- The three fields of a host word. -/
theorem hopWord_fields (op : BitVec 4) (dn v : W16) :
    (hopWord op dn v).extractLsb' 32 4 = op ∧ (hopWord op dn v).extractLsb' 16 16 = dn
      ∧ (hopWord op dn v).extractLsb' 0 16 = v := by
  have hw : ∀ k n, BitVec.extractLsb' k n (hopWord op dn v)
      = BitVec.extractLsb' k n (op ++ dn ++ v : BitVec (4 + 16 + 16)) := fun _ _ => rfl
  refine ⟨?_, ?_, ?_⟩ <;> rw [hw] <;> ext i h <;>
    simp only [BitVec.getElem_extractLsb', BitVec.getLsbD_append]
  · rw [if_neg (by omega), if_neg (by omega), show 32 + i - 16 - 16 = i by omega, BitVec.getLsbD_eq_getElem h]
  · rw [if_neg (by omega), if_pos (by omega), show 16 + i - 16 = i by omega, BitVec.getLsbD_eq_getElem h]
  · rw [if_pos (by omega), show 0 + i = i by omega, BitVec.getLsbD_eq_getElem h]

end Sys2Proof
end

