-- ==== Sys2Proof/Laws/State.lean ====
section
/-! SUPPORT. What each named update does to each field of State: one lemma per field per update, so that no proof unfolds
a record update. -/

namespace Sys2Proof.Machine

/-! ## `emit` -/

@[simp] theorem emit_cfg (e : Event) (s : State) : (emit e s).cfg = s.cfg := rfl
@[simp] theorem emit_now (e : Event) (s : State) : (emit e s).now = s.now := rfl
@[simp] theorem emit_currentFloor (e : Event) (s : State) : (emit e s).currentFloor = s.currentFloor := rfl
@[simp] theorem emit_targetFloor (e : Event) (s : State) : (emit e s).targetFloor = s.targetFloor := rfl
@[simp] theorem emit_loadWeight (e : Event) (s : State) : (emit e s).loadWeight = s.loadWeight := rfl
@[simp] theorem emit_moving (e : Event) (s : State) : (emit e s).moving = s.moving := rfl
@[simp] theorem emit_doorStatus (e : Event) (s : State) : (emit e s).doorStatus = s.doorStatus := rfl
@[simp] theorem emit_linkState (e : Event) (s : State) : (emit e s).linkState = s.linkState := rfl
@[simp] theorem emit_failCnt (e : Event) (s : State) : (emit e s).failCnt = s.failCnt := rfl
@[simp] theorem emit_linkEnable (e : Event) (s : State) : (emit e s).linkEnable = s.linkEnable := rfl
@[simp] theorem emit_attemptCnt (e : Event) (s : State) : (emit e s).attemptCnt = s.attemptCnt := rfl
@[simp] theorem emit_backoffT0 (e : Event) (s : State) : (emit e s).backoffT0 = s.backoffT0 := rfl
@[simp] theorem emit_backoffDelay (e : Event) (s : State) : (emit e s).backoffDelay = s.backoffDelay := rfl
@[simp] theorem emit_lastRxTime (e : Event) (s : State) : (emit e s).lastRxTime = s.lastRxTime := rfl
@[simp] theorem emit_pendValid (e : Event) (s : State) : (emit e s).pendValid = s.pendValid := rfl
@[simp] theorem emit_pendDn (e : Event) (s : State) : (emit e s).pendDn = s.pendDn := rfl
@[simp] theorem emit_pendValue (e : Event) (s : State) : (emit e s).pendValue = s.pendValue := rfl
@[simp] theorem emit_retryCnt (e : Event) (s : State) : (emit e s).retryCnt = s.retryCnt := rfl
@[simp] theorem emit_ackT0 (e : Event) (s : State) : (emit e s).ackT0 = s.ackT0 := rfl
@[simp] theorem emit_sessState (e : Event) (s : State) : (emit e s).sessState = s.sessState := rfl
@[simp] theorem emit_dedup (e : Event) (s : State) : (emit e s).dedup = s.dedup := rfl
@[simp] theorem emit_rxBuf (e : Event) (s : State) : (emit e s).rxBuf = s.rxBuf := rfl
@[simp] theorem emit_scanPc (e : Event) (s : State) : (emit e s).scanPc = s.scanPc := rfl
@[simp] theorem emit_fq (e : Event) (s : State) : (emit e s).fq = s.fq := rfl
@[simp] theorem emit_txq (e : Event) (s : State) : (emit e s).txq = s.txq := rfl
@[simp] theorem emit_txActive (e : Event) (s : State) : (emit e s).txActive = s.txActive := rfl
@[simp] theorem emit_txIdx (e : Event) (s : State) : (emit e s).txIdx = s.txIdx := rfl
@[simp] theorem emit_events (e : Event) (s : State) : (emit e s).events = s.events ++ [e] := rfl
@[simp] theorem emit_lineOut (e : Event) (s : State) : (emit e s).lineOut = s.lineOut := rfl
@[simp] theorem emit_devOut (e : Event) (s : State) : (emit e s).devOut = s.devOut := rfl
@[simp] theorem emit_hostReply (e : Event) (s : State) : (emit e s).hostReply = s.hostReply := rfl
@[simp] theorem emit_sched (e : Event) (s : State) : (emit e s).sched = s.sched := rfl
@[simp] theorem emit_phase (e : Event) (s : State) : (emit e s).phase = s.phase := rfl

/-! ## `raise` -/

@[simp] theorem raise_cfg (e : Error) (s : State) : (raise e s).cfg = s.cfg := rfl
@[simp] theorem raise_now (e : Error) (s : State) : (raise e s).now = s.now := rfl
@[simp] theorem raise_currentFloor (e : Error) (s : State) : (raise e s).currentFloor = s.currentFloor := rfl
@[simp] theorem raise_targetFloor (e : Error) (s : State) : (raise e s).targetFloor = s.targetFloor := rfl
@[simp] theorem raise_loadWeight (e : Error) (s : State) : (raise e s).loadWeight = s.loadWeight := rfl
@[simp] theorem raise_moving (e : Error) (s : State) : (raise e s).moving = s.moving := rfl
@[simp] theorem raise_doorStatus (e : Error) (s : State) : (raise e s).doorStatus = s.doorStatus := rfl
@[simp] theorem raise_linkState (e : Error) (s : State) : (raise e s).linkState = s.linkState := rfl
@[simp] theorem raise_failCnt (e : Error) (s : State) : (raise e s).failCnt = s.failCnt := rfl
@[simp] theorem raise_linkEnable (e : Error) (s : State) : (raise e s).linkEnable = s.linkEnable := rfl
@[simp] theorem raise_attemptCnt (e : Error) (s : State) : (raise e s).attemptCnt = s.attemptCnt := rfl
@[simp] theorem raise_backoffT0 (e : Error) (s : State) : (raise e s).backoffT0 = s.backoffT0 := rfl
@[simp] theorem raise_backoffDelay (e : Error) (s : State) : (raise e s).backoffDelay = s.backoffDelay := rfl
@[simp] theorem raise_lastRxTime (e : Error) (s : State) : (raise e s).lastRxTime = s.lastRxTime := rfl
@[simp] theorem raise_pendValid (e : Error) (s : State) : (raise e s).pendValid = s.pendValid := rfl
@[simp] theorem raise_pendDn (e : Error) (s : State) : (raise e s).pendDn = s.pendDn := rfl
@[simp] theorem raise_pendValue (e : Error) (s : State) : (raise e s).pendValue = s.pendValue := rfl
@[simp] theorem raise_retryCnt (e : Error) (s : State) : (raise e s).retryCnt = s.retryCnt := rfl
@[simp] theorem raise_ackT0 (e : Error) (s : State) : (raise e s).ackT0 = s.ackT0 := rfl
@[simp] theorem raise_sessState (e : Error) (s : State) : (raise e s).sessState = s.sessState := rfl
@[simp] theorem raise_dedup (e : Error) (s : State) : (raise e s).dedup = s.dedup := rfl
@[simp] theorem raise_rxBuf (e : Error) (s : State) : (raise e s).rxBuf = s.rxBuf := rfl
@[simp] theorem raise_scanPc (e : Error) (s : State) : (raise e s).scanPc = s.scanPc := rfl
@[simp] theorem raise_fq (e : Error) (s : State) : (raise e s).fq = s.fq := rfl
@[simp] theorem raise_txq (e : Error) (s : State) : (raise e s).txq = s.txq := rfl
@[simp] theorem raise_txActive (e : Error) (s : State) : (raise e s).txActive = s.txActive := rfl
@[simp] theorem raise_txIdx (e : Error) (s : State) : (raise e s).txIdx = s.txIdx := rfl
@[simp] theorem raise_events (e : Error) (s : State) : (raise e s).events = s.events ++ [.error e] := rfl
@[simp] theorem raise_lineOut (e : Error) (s : State) : (raise e s).lineOut = s.lineOut := rfl
@[simp] theorem raise_devOut (e : Error) (s : State) : (raise e s).devOut = s.devOut := rfl
@[simp] theorem raise_hostReply (e : Error) (s : State) : (raise e s).hostReply = s.hostReply := rfl
@[simp] theorem raise_sched (e : Error) (s : State) : (raise e s).sched = s.sched := rfl
@[simp] theorem raise_phase (e : Error) (s : State) : (raise e s).phase = s.phase := rfl

/-! ## `reply` -/

@[simp] theorem reply_cfg (c : BitVec 4) (k : Option Snapshot) (s : State) : (reply c k s).cfg = s.cfg := rfl
@[simp] theorem reply_now (c : BitVec 4) (k : Option Snapshot) (s : State) : (reply c k s).now = s.now := rfl
@[simp] theorem reply_currentFloor (c : BitVec 4) (k : Option Snapshot) (s : State) : (reply c k s).currentFloor = s.currentFloor := rfl
@[simp] theorem reply_targetFloor (c : BitVec 4) (k : Option Snapshot) (s : State) : (reply c k s).targetFloor = s.targetFloor := rfl
@[simp] theorem reply_loadWeight (c : BitVec 4) (k : Option Snapshot) (s : State) : (reply c k s).loadWeight = s.loadWeight := rfl
@[simp] theorem reply_moving (c : BitVec 4) (k : Option Snapshot) (s : State) : (reply c k s).moving = s.moving := rfl
@[simp] theorem reply_doorStatus (c : BitVec 4) (k : Option Snapshot) (s : State) : (reply c k s).doorStatus = s.doorStatus := rfl
@[simp] theorem reply_linkState (c : BitVec 4) (k : Option Snapshot) (s : State) : (reply c k s).linkState = s.linkState := rfl
@[simp] theorem reply_failCnt (c : BitVec 4) (k : Option Snapshot) (s : State) : (reply c k s).failCnt = s.failCnt := rfl
@[simp] theorem reply_linkEnable (c : BitVec 4) (k : Option Snapshot) (s : State) : (reply c k s).linkEnable = s.linkEnable := rfl
@[simp] theorem reply_attemptCnt (c : BitVec 4) (k : Option Snapshot) (s : State) : (reply c k s).attemptCnt = s.attemptCnt := rfl
@[simp] theorem reply_backoffT0 (c : BitVec 4) (k : Option Snapshot) (s : State) : (reply c k s).backoffT0 = s.backoffT0 := rfl
@[simp] theorem reply_backoffDelay (c : BitVec 4) (k : Option Snapshot) (s : State) : (reply c k s).backoffDelay = s.backoffDelay := rfl
@[simp] theorem reply_lastRxTime (c : BitVec 4) (k : Option Snapshot) (s : State) : (reply c k s).lastRxTime = s.lastRxTime := rfl
@[simp] theorem reply_pendValid (c : BitVec 4) (k : Option Snapshot) (s : State) : (reply c k s).pendValid = s.pendValid := rfl
@[simp] theorem reply_pendDn (c : BitVec 4) (k : Option Snapshot) (s : State) : (reply c k s).pendDn = s.pendDn := rfl
@[simp] theorem reply_pendValue (c : BitVec 4) (k : Option Snapshot) (s : State) : (reply c k s).pendValue = s.pendValue := rfl
@[simp] theorem reply_retryCnt (c : BitVec 4) (k : Option Snapshot) (s : State) : (reply c k s).retryCnt = s.retryCnt := rfl
@[simp] theorem reply_ackT0 (c : BitVec 4) (k : Option Snapshot) (s : State) : (reply c k s).ackT0 = s.ackT0 := rfl
@[simp] theorem reply_sessState (c : BitVec 4) (k : Option Snapshot) (s : State) : (reply c k s).sessState = s.sessState := rfl
@[simp] theorem reply_dedup (c : BitVec 4) (k : Option Snapshot) (s : State) : (reply c k s).dedup = s.dedup := rfl
@[simp] theorem reply_rxBuf (c : BitVec 4) (k : Option Snapshot) (s : State) : (reply c k s).rxBuf = s.rxBuf := rfl
@[simp] theorem reply_scanPc (c : BitVec 4) (k : Option Snapshot) (s : State) : (reply c k s).scanPc = s.scanPc := rfl
@[simp] theorem reply_fq (c : BitVec 4) (k : Option Snapshot) (s : State) : (reply c k s).fq = s.fq := rfl
@[simp] theorem reply_txq (c : BitVec 4) (k : Option Snapshot) (s : State) : (reply c k s).txq = s.txq := rfl
@[simp] theorem reply_txActive (c : BitVec 4) (k : Option Snapshot) (s : State) : (reply c k s).txActive = s.txActive := rfl
@[simp] theorem reply_txIdx (c : BitVec 4) (k : Option Snapshot) (s : State) : (reply c k s).txIdx = s.txIdx := rfl
@[simp] theorem reply_events (c : BitVec 4) (k : Option Snapshot) (s : State) : (reply c k s).events = s.events := rfl
@[simp] theorem reply_lineOut (c : BitVec 4) (k : Option Snapshot) (s : State) : (reply c k s).lineOut = s.lineOut := rfl
@[simp] theorem reply_devOut (c : BitVec 4) (k : Option Snapshot) (s : State) : (reply c k s).devOut = s.devOut := rfl
@[simp] theorem reply_hostReply (c : BitVec 4) (k : Option Snapshot) (s : State) : (reply c k s).hostReply = some ⟨c, k⟩ := rfl
@[simp] theorem reply_sched (c : BitVec 4) (k : Option Snapshot) (s : State) : (reply c k s).sched = s.sched := rfl
@[simp] theorem reply_phase (c : BitVec 4) (k : Option Snapshot) (s : State) : (reply c k s).phase = s.phase := rfl

/-! ## `pulse` -/

@[simp] theorem pulse_cfg (p : DevPulse) (s : State) : (pulse p s).cfg = s.cfg := rfl
@[simp] theorem pulse_now (p : DevPulse) (s : State) : (pulse p s).now = s.now := rfl
@[simp] theorem pulse_currentFloor (p : DevPulse) (s : State) : (pulse p s).currentFloor = s.currentFloor := rfl
@[simp] theorem pulse_targetFloor (p : DevPulse) (s : State) : (pulse p s).targetFloor = s.targetFloor := rfl
@[simp] theorem pulse_loadWeight (p : DevPulse) (s : State) : (pulse p s).loadWeight = s.loadWeight := rfl
@[simp] theorem pulse_moving (p : DevPulse) (s : State) : (pulse p s).moving = s.moving := rfl
@[simp] theorem pulse_doorStatus (p : DevPulse) (s : State) : (pulse p s).doorStatus = s.doorStatus := rfl
@[simp] theorem pulse_linkState (p : DevPulse) (s : State) : (pulse p s).linkState = s.linkState := rfl
@[simp] theorem pulse_failCnt (p : DevPulse) (s : State) : (pulse p s).failCnt = s.failCnt := rfl
@[simp] theorem pulse_linkEnable (p : DevPulse) (s : State) : (pulse p s).linkEnable = s.linkEnable := rfl
@[simp] theorem pulse_attemptCnt (p : DevPulse) (s : State) : (pulse p s).attemptCnt = s.attemptCnt := rfl
@[simp] theorem pulse_backoffT0 (p : DevPulse) (s : State) : (pulse p s).backoffT0 = s.backoffT0 := rfl
@[simp] theorem pulse_backoffDelay (p : DevPulse) (s : State) : (pulse p s).backoffDelay = s.backoffDelay := rfl
@[simp] theorem pulse_lastRxTime (p : DevPulse) (s : State) : (pulse p s).lastRxTime = s.lastRxTime := rfl
@[simp] theorem pulse_pendValid (p : DevPulse) (s : State) : (pulse p s).pendValid = s.pendValid := rfl
@[simp] theorem pulse_pendDn (p : DevPulse) (s : State) : (pulse p s).pendDn = s.pendDn := rfl
@[simp] theorem pulse_pendValue (p : DevPulse) (s : State) : (pulse p s).pendValue = s.pendValue := rfl
@[simp] theorem pulse_retryCnt (p : DevPulse) (s : State) : (pulse p s).retryCnt = s.retryCnt := rfl
@[simp] theorem pulse_ackT0 (p : DevPulse) (s : State) : (pulse p s).ackT0 = s.ackT0 := rfl
@[simp] theorem pulse_sessState (p : DevPulse) (s : State) : (pulse p s).sessState = s.sessState := rfl
@[simp] theorem pulse_dedup (p : DevPulse) (s : State) : (pulse p s).dedup = s.dedup := rfl
@[simp] theorem pulse_rxBuf (p : DevPulse) (s : State) : (pulse p s).rxBuf = s.rxBuf := rfl
@[simp] theorem pulse_scanPc (p : DevPulse) (s : State) : (pulse p s).scanPc = s.scanPc := rfl
@[simp] theorem pulse_fq (p : DevPulse) (s : State) : (pulse p s).fq = s.fq := rfl
@[simp] theorem pulse_txq (p : DevPulse) (s : State) : (pulse p s).txq = s.txq := rfl
@[simp] theorem pulse_txActive (p : DevPulse) (s : State) : (pulse p s).txActive = s.txActive := rfl
@[simp] theorem pulse_txIdx (p : DevPulse) (s : State) : (pulse p s).txIdx = s.txIdx := rfl
@[simp] theorem pulse_events (p : DevPulse) (s : State) : (pulse p s).events = s.events := rfl
@[simp] theorem pulse_lineOut (p : DevPulse) (s : State) : (pulse p s).lineOut = s.lineOut := rfl
@[simp] theorem pulse_devOut (p : DevPulse) (s : State) : (pulse p s).devOut = s.devOut ++ [p] := rfl
@[simp] theorem pulse_hostReply (p : DevPulse) (s : State) : (pulse p s).hostReply = s.hostReply := rfl
@[simp] theorem pulse_sched (p : DevPulse) (s : State) : (pulse p s).sched = s.sched := rfl
@[simp] theorem pulse_phase (p : DevPulse) (s : State) : (pulse p s).phase = s.phase := rfl

/-! ## `bufAppend` -/

@[simp] theorem bufAppend_cfg (b : Byte) (s : State) : (bufAppend b s).cfg = s.cfg := rfl
@[simp] theorem bufAppend_now (b : Byte) (s : State) : (bufAppend b s).now = s.now := rfl
@[simp] theorem bufAppend_currentFloor (b : Byte) (s : State) : (bufAppend b s).currentFloor = s.currentFloor := rfl
@[simp] theorem bufAppend_targetFloor (b : Byte) (s : State) : (bufAppend b s).targetFloor = s.targetFloor := rfl
@[simp] theorem bufAppend_loadWeight (b : Byte) (s : State) : (bufAppend b s).loadWeight = s.loadWeight := rfl
@[simp] theorem bufAppend_moving (b : Byte) (s : State) : (bufAppend b s).moving = s.moving := rfl
@[simp] theorem bufAppend_doorStatus (b : Byte) (s : State) : (bufAppend b s).doorStatus = s.doorStatus := rfl
@[simp] theorem bufAppend_linkState (b : Byte) (s : State) : (bufAppend b s).linkState = s.linkState := rfl
@[simp] theorem bufAppend_failCnt (b : Byte) (s : State) : (bufAppend b s).failCnt = s.failCnt := rfl
@[simp] theorem bufAppend_linkEnable (b : Byte) (s : State) : (bufAppend b s).linkEnable = s.linkEnable := rfl
@[simp] theorem bufAppend_attemptCnt (b : Byte) (s : State) : (bufAppend b s).attemptCnt = s.attemptCnt := rfl
@[simp] theorem bufAppend_backoffT0 (b : Byte) (s : State) : (bufAppend b s).backoffT0 = s.backoffT0 := rfl
@[simp] theorem bufAppend_backoffDelay (b : Byte) (s : State) : (bufAppend b s).backoffDelay = s.backoffDelay := rfl
@[simp] theorem bufAppend_lastRxTime (b : Byte) (s : State) : (bufAppend b s).lastRxTime = s.lastRxTime := rfl
@[simp] theorem bufAppend_pendValid (b : Byte) (s : State) : (bufAppend b s).pendValid = s.pendValid := rfl
@[simp] theorem bufAppend_pendDn (b : Byte) (s : State) : (bufAppend b s).pendDn = s.pendDn := rfl
@[simp] theorem bufAppend_pendValue (b : Byte) (s : State) : (bufAppend b s).pendValue = s.pendValue := rfl
@[simp] theorem bufAppend_retryCnt (b : Byte) (s : State) : (bufAppend b s).retryCnt = s.retryCnt := rfl
@[simp] theorem bufAppend_ackT0 (b : Byte) (s : State) : (bufAppend b s).ackT0 = s.ackT0 := rfl
@[simp] theorem bufAppend_sessState (b : Byte) (s : State) : (bufAppend b s).sessState = s.sessState := rfl
@[simp] theorem bufAppend_dedup (b : Byte) (s : State) : (bufAppend b s).dedup = s.dedup := rfl
@[simp] theorem bufAppend_rxBuf (b : Byte) (s : State) : (bufAppend b s).rxBuf = s.rxBuf ++ [b] := rfl
@[simp] theorem bufAppend_scanPc (b : Byte) (s : State) : (bufAppend b s).scanPc = s.scanPc := rfl
@[simp] theorem bufAppend_fq (b : Byte) (s : State) : (bufAppend b s).fq = s.fq := rfl
@[simp] theorem bufAppend_txq (b : Byte) (s : State) : (bufAppend b s).txq = s.txq := rfl
@[simp] theorem bufAppend_txActive (b : Byte) (s : State) : (bufAppend b s).txActive = s.txActive := rfl
@[simp] theorem bufAppend_txIdx (b : Byte) (s : State) : (bufAppend b s).txIdx = s.txIdx := rfl
@[simp] theorem bufAppend_events (b : Byte) (s : State) : (bufAppend b s).events = s.events := rfl
@[simp] theorem bufAppend_lineOut (b : Byte) (s : State) : (bufAppend b s).lineOut = s.lineOut := rfl
@[simp] theorem bufAppend_devOut (b : Byte) (s : State) : (bufAppend b s).devOut = s.devOut := rfl
@[simp] theorem bufAppend_hostReply (b : Byte) (s : State) : (bufAppend b s).hostReply = s.hostReply := rfl
@[simp] theorem bufAppend_sched (b : Byte) (s : State) : (bufAppend b s).sched = s.sched := rfl
@[simp] theorem bufAppend_phase (b : Byte) (s : State) : (bufAppend b s).phase = s.phase := rfl

/-! ## `bufDrop` -/

@[simp] theorem bufDrop_cfg (n : Nat) (s : State) : (bufDrop n s).cfg = s.cfg := rfl
@[simp] theorem bufDrop_now (n : Nat) (s : State) : (bufDrop n s).now = s.now := rfl
@[simp] theorem bufDrop_currentFloor (n : Nat) (s : State) : (bufDrop n s).currentFloor = s.currentFloor := rfl
@[simp] theorem bufDrop_targetFloor (n : Nat) (s : State) : (bufDrop n s).targetFloor = s.targetFloor := rfl
@[simp] theorem bufDrop_loadWeight (n : Nat) (s : State) : (bufDrop n s).loadWeight = s.loadWeight := rfl
@[simp] theorem bufDrop_moving (n : Nat) (s : State) : (bufDrop n s).moving = s.moving := rfl
@[simp] theorem bufDrop_doorStatus (n : Nat) (s : State) : (bufDrop n s).doorStatus = s.doorStatus := rfl
@[simp] theorem bufDrop_linkState (n : Nat) (s : State) : (bufDrop n s).linkState = s.linkState := rfl
@[simp] theorem bufDrop_failCnt (n : Nat) (s : State) : (bufDrop n s).failCnt = s.failCnt := rfl
@[simp] theorem bufDrop_linkEnable (n : Nat) (s : State) : (bufDrop n s).linkEnable = s.linkEnable := rfl
@[simp] theorem bufDrop_attemptCnt (n : Nat) (s : State) : (bufDrop n s).attemptCnt = s.attemptCnt := rfl
@[simp] theorem bufDrop_backoffT0 (n : Nat) (s : State) : (bufDrop n s).backoffT0 = s.backoffT0 := rfl
@[simp] theorem bufDrop_backoffDelay (n : Nat) (s : State) : (bufDrop n s).backoffDelay = s.backoffDelay := rfl
@[simp] theorem bufDrop_lastRxTime (n : Nat) (s : State) : (bufDrop n s).lastRxTime = s.lastRxTime := rfl
@[simp] theorem bufDrop_pendValid (n : Nat) (s : State) : (bufDrop n s).pendValid = s.pendValid := rfl
@[simp] theorem bufDrop_pendDn (n : Nat) (s : State) : (bufDrop n s).pendDn = s.pendDn := rfl
@[simp] theorem bufDrop_pendValue (n : Nat) (s : State) : (bufDrop n s).pendValue = s.pendValue := rfl
@[simp] theorem bufDrop_retryCnt (n : Nat) (s : State) : (bufDrop n s).retryCnt = s.retryCnt := rfl
@[simp] theorem bufDrop_ackT0 (n : Nat) (s : State) : (bufDrop n s).ackT0 = s.ackT0 := rfl
@[simp] theorem bufDrop_sessState (n : Nat) (s : State) : (bufDrop n s).sessState = s.sessState := rfl
@[simp] theorem bufDrop_dedup (n : Nat) (s : State) : (bufDrop n s).dedup = s.dedup := rfl
@[simp] theorem bufDrop_rxBuf (n : Nat) (s : State) : (bufDrop n s).rxBuf = s.rxBuf.drop n := rfl
@[simp] theorem bufDrop_scanPc (n : Nat) (s : State) : (bufDrop n s).scanPc = s.scanPc + BitVec.ofNat 32 n := rfl
@[simp] theorem bufDrop_fq (n : Nat) (s : State) : (bufDrop n s).fq = s.fq := rfl
@[simp] theorem bufDrop_txq (n : Nat) (s : State) : (bufDrop n s).txq = s.txq := rfl
@[simp] theorem bufDrop_txActive (n : Nat) (s : State) : (bufDrop n s).txActive = s.txActive := rfl
@[simp] theorem bufDrop_txIdx (n : Nat) (s : State) : (bufDrop n s).txIdx = s.txIdx := rfl
@[simp] theorem bufDrop_events (n : Nat) (s : State) : (bufDrop n s).events = s.events := rfl
@[simp] theorem bufDrop_lineOut (n : Nat) (s : State) : (bufDrop n s).lineOut = s.lineOut := rfl
@[simp] theorem bufDrop_devOut (n : Nat) (s : State) : (bufDrop n s).devOut = s.devOut := rfl
@[simp] theorem bufDrop_hostReply (n : Nat) (s : State) : (bufDrop n s).hostReply = s.hostReply := rfl
@[simp] theorem bufDrop_sched (n : Nat) (s : State) : (bufDrop n s).sched = s.sched := rfl
@[simp] theorem bufDrop_phase (n : Nat) (s : State) : (bufDrop n s).phase = s.phase := rfl

/-! ## `fqPush` -/

@[simp] theorem fqPush_cfg (f : Frame) (s : State) : (fqPush f s).cfg = s.cfg := rfl
@[simp] theorem fqPush_now (f : Frame) (s : State) : (fqPush f s).now = s.now := rfl
@[simp] theorem fqPush_currentFloor (f : Frame) (s : State) : (fqPush f s).currentFloor = s.currentFloor := rfl
@[simp] theorem fqPush_targetFloor (f : Frame) (s : State) : (fqPush f s).targetFloor = s.targetFloor := rfl
@[simp] theorem fqPush_loadWeight (f : Frame) (s : State) : (fqPush f s).loadWeight = s.loadWeight := rfl
@[simp] theorem fqPush_moving (f : Frame) (s : State) : (fqPush f s).moving = s.moving := rfl
@[simp] theorem fqPush_doorStatus (f : Frame) (s : State) : (fqPush f s).doorStatus = s.doorStatus := rfl
@[simp] theorem fqPush_linkState (f : Frame) (s : State) : (fqPush f s).linkState = s.linkState := rfl
@[simp] theorem fqPush_failCnt (f : Frame) (s : State) : (fqPush f s).failCnt = s.failCnt := rfl
@[simp] theorem fqPush_linkEnable (f : Frame) (s : State) : (fqPush f s).linkEnable = s.linkEnable := rfl
@[simp] theorem fqPush_attemptCnt (f : Frame) (s : State) : (fqPush f s).attemptCnt = s.attemptCnt := rfl
@[simp] theorem fqPush_backoffT0 (f : Frame) (s : State) : (fqPush f s).backoffT0 = s.backoffT0 := rfl
@[simp] theorem fqPush_backoffDelay (f : Frame) (s : State) : (fqPush f s).backoffDelay = s.backoffDelay := rfl
@[simp] theorem fqPush_lastRxTime (f : Frame) (s : State) : (fqPush f s).lastRxTime = s.lastRxTime := rfl
@[simp] theorem fqPush_pendValid (f : Frame) (s : State) : (fqPush f s).pendValid = s.pendValid := rfl
@[simp] theorem fqPush_pendDn (f : Frame) (s : State) : (fqPush f s).pendDn = s.pendDn := rfl
@[simp] theorem fqPush_pendValue (f : Frame) (s : State) : (fqPush f s).pendValue = s.pendValue := rfl
@[simp] theorem fqPush_retryCnt (f : Frame) (s : State) : (fqPush f s).retryCnt = s.retryCnt := rfl
@[simp] theorem fqPush_ackT0 (f : Frame) (s : State) : (fqPush f s).ackT0 = s.ackT0 := rfl
@[simp] theorem fqPush_sessState (f : Frame) (s : State) : (fqPush f s).sessState = s.sessState := rfl
@[simp] theorem fqPush_dedup (f : Frame) (s : State) : (fqPush f s).dedup = s.dedup := rfl
@[simp] theorem fqPush_rxBuf (f : Frame) (s : State) : (fqPush f s).rxBuf = s.rxBuf := rfl
@[simp] theorem fqPush_scanPc (f : Frame) (s : State) : (fqPush f s).scanPc = s.scanPc := rfl
@[simp] theorem fqPush_fq (f : Frame) (s : State) : (fqPush f s).fq = s.fq ++ [f] := rfl
@[simp] theorem fqPush_txq (f : Frame) (s : State) : (fqPush f s).txq = s.txq := rfl
@[simp] theorem fqPush_txActive (f : Frame) (s : State) : (fqPush f s).txActive = s.txActive := rfl
@[simp] theorem fqPush_txIdx (f : Frame) (s : State) : (fqPush f s).txIdx = s.txIdx := rfl
@[simp] theorem fqPush_events (f : Frame) (s : State) : (fqPush f s).events = s.events := rfl
@[simp] theorem fqPush_lineOut (f : Frame) (s : State) : (fqPush f s).lineOut = s.lineOut := rfl
@[simp] theorem fqPush_devOut (f : Frame) (s : State) : (fqPush f s).devOut = s.devOut := rfl
@[simp] theorem fqPush_hostReply (f : Frame) (s : State) : (fqPush f s).hostReply = s.hostReply := rfl
@[simp] theorem fqPush_sched (f : Frame) (s : State) : (fqPush f s).sched = s.sched := rfl
@[simp] theorem fqPush_phase (f : Frame) (s : State) : (fqPush f s).phase = s.phase := rfl

/-! ## `fqPop` -/

@[simp] theorem fqPop_cfg (s : State) : (fqPop s).cfg = s.cfg := rfl
@[simp] theorem fqPop_now (s : State) : (fqPop s).now = s.now := rfl
@[simp] theorem fqPop_currentFloor (s : State) : (fqPop s).currentFloor = s.currentFloor := rfl
@[simp] theorem fqPop_targetFloor (s : State) : (fqPop s).targetFloor = s.targetFloor := rfl
@[simp] theorem fqPop_loadWeight (s : State) : (fqPop s).loadWeight = s.loadWeight := rfl
@[simp] theorem fqPop_moving (s : State) : (fqPop s).moving = s.moving := rfl
@[simp] theorem fqPop_doorStatus (s : State) : (fqPop s).doorStatus = s.doorStatus := rfl
@[simp] theorem fqPop_linkState (s : State) : (fqPop s).linkState = s.linkState := rfl
@[simp] theorem fqPop_failCnt (s : State) : (fqPop s).failCnt = s.failCnt := rfl
@[simp] theorem fqPop_linkEnable (s : State) : (fqPop s).linkEnable = s.linkEnable := rfl
@[simp] theorem fqPop_attemptCnt (s : State) : (fqPop s).attemptCnt = s.attemptCnt := rfl
@[simp] theorem fqPop_backoffT0 (s : State) : (fqPop s).backoffT0 = s.backoffT0 := rfl
@[simp] theorem fqPop_backoffDelay (s : State) : (fqPop s).backoffDelay = s.backoffDelay := rfl
@[simp] theorem fqPop_lastRxTime (s : State) : (fqPop s).lastRxTime = s.lastRxTime := rfl
@[simp] theorem fqPop_pendValid (s : State) : (fqPop s).pendValid = s.pendValid := rfl
@[simp] theorem fqPop_pendDn (s : State) : (fqPop s).pendDn = s.pendDn := rfl
@[simp] theorem fqPop_pendValue (s : State) : (fqPop s).pendValue = s.pendValue := rfl
@[simp] theorem fqPop_retryCnt (s : State) : (fqPop s).retryCnt = s.retryCnt := rfl
@[simp] theorem fqPop_ackT0 (s : State) : (fqPop s).ackT0 = s.ackT0 := rfl
@[simp] theorem fqPop_sessState (s : State) : (fqPop s).sessState = s.sessState := rfl
@[simp] theorem fqPop_dedup (s : State) : (fqPop s).dedup = s.dedup := rfl
@[simp] theorem fqPop_rxBuf (s : State) : (fqPop s).rxBuf = s.rxBuf := rfl
@[simp] theorem fqPop_scanPc (s : State) : (fqPop s).scanPc = s.scanPc := rfl
@[simp] theorem fqPop_fq (s : State) : (fqPop s).fq = s.fq.tail := rfl
@[simp] theorem fqPop_txq (s : State) : (fqPop s).txq = s.txq := rfl
@[simp] theorem fqPop_txActive (s : State) : (fqPop s).txActive = s.txActive := rfl
@[simp] theorem fqPop_txIdx (s : State) : (fqPop s).txIdx = s.txIdx := rfl
@[simp] theorem fqPop_events (s : State) : (fqPop s).events = s.events := rfl
@[simp] theorem fqPop_lineOut (s : State) : (fqPop s).lineOut = s.lineOut := rfl
@[simp] theorem fqPop_devOut (s : State) : (fqPop s).devOut = s.devOut := rfl
@[simp] theorem fqPop_hostReply (s : State) : (fqPop s).hostReply = s.hostReply := rfl
@[simp] theorem fqPop_sched (s : State) : (fqPop s).sched = s.sched := rfl
@[simp] theorem fqPop_phase (s : State) : (fqPop s).phase = s.phase := rfl

/-! ## `txPush` -/

@[simp] theorem txPush_cfg (B : List Byte) (s : State) : (txPush B s).cfg = s.cfg := rfl
@[simp] theorem txPush_now (B : List Byte) (s : State) : (txPush B s).now = s.now := rfl
@[simp] theorem txPush_currentFloor (B : List Byte) (s : State) : (txPush B s).currentFloor = s.currentFloor := rfl
@[simp] theorem txPush_targetFloor (B : List Byte) (s : State) : (txPush B s).targetFloor = s.targetFloor := rfl
@[simp] theorem txPush_loadWeight (B : List Byte) (s : State) : (txPush B s).loadWeight = s.loadWeight := rfl
@[simp] theorem txPush_moving (B : List Byte) (s : State) : (txPush B s).moving = s.moving := rfl
@[simp] theorem txPush_doorStatus (B : List Byte) (s : State) : (txPush B s).doorStatus = s.doorStatus := rfl
@[simp] theorem txPush_linkState (B : List Byte) (s : State) : (txPush B s).linkState = s.linkState := rfl
@[simp] theorem txPush_failCnt (B : List Byte) (s : State) : (txPush B s).failCnt = s.failCnt := rfl
@[simp] theorem txPush_linkEnable (B : List Byte) (s : State) : (txPush B s).linkEnable = s.linkEnable := rfl
@[simp] theorem txPush_attemptCnt (B : List Byte) (s : State) : (txPush B s).attemptCnt = s.attemptCnt := rfl
@[simp] theorem txPush_backoffT0 (B : List Byte) (s : State) : (txPush B s).backoffT0 = s.backoffT0 := rfl
@[simp] theorem txPush_backoffDelay (B : List Byte) (s : State) : (txPush B s).backoffDelay = s.backoffDelay := rfl
@[simp] theorem txPush_lastRxTime (B : List Byte) (s : State) : (txPush B s).lastRxTime = s.lastRxTime := rfl
@[simp] theorem txPush_pendValid (B : List Byte) (s : State) : (txPush B s).pendValid = s.pendValid := rfl
@[simp] theorem txPush_pendDn (B : List Byte) (s : State) : (txPush B s).pendDn = s.pendDn := rfl
@[simp] theorem txPush_pendValue (B : List Byte) (s : State) : (txPush B s).pendValue = s.pendValue := rfl
@[simp] theorem txPush_retryCnt (B : List Byte) (s : State) : (txPush B s).retryCnt = s.retryCnt := rfl
@[simp] theorem txPush_ackT0 (B : List Byte) (s : State) : (txPush B s).ackT0 = s.ackT0 := rfl
@[simp] theorem txPush_sessState (B : List Byte) (s : State) : (txPush B s).sessState = s.sessState := rfl
@[simp] theorem txPush_dedup (B : List Byte) (s : State) : (txPush B s).dedup = s.dedup := rfl
@[simp] theorem txPush_rxBuf (B : List Byte) (s : State) : (txPush B s).rxBuf = s.rxBuf := rfl
@[simp] theorem txPush_scanPc (B : List Byte) (s : State) : (txPush B s).scanPc = s.scanPc := rfl
@[simp] theorem txPush_fq (B : List Byte) (s : State) : (txPush B s).fq = s.fq := rfl
@[simp] theorem txPush_txq (B : List Byte) (s : State) : (txPush B s).txq = s.txq ++ [B] := rfl
@[simp] theorem txPush_txActive (B : List Byte) (s : State) : (txPush B s).txActive = s.txActive := rfl
@[simp] theorem txPush_txIdx (B : List Byte) (s : State) : (txPush B s).txIdx = s.txIdx := rfl
@[simp] theorem txPush_events (B : List Byte) (s : State) : (txPush B s).events = s.events := rfl
@[simp] theorem txPush_lineOut (B : List Byte) (s : State) : (txPush B s).lineOut = s.lineOut := rfl
@[simp] theorem txPush_devOut (B : List Byte) (s : State) : (txPush B s).devOut = s.devOut := rfl
@[simp] theorem txPush_hostReply (B : List Byte) (s : State) : (txPush B s).hostReply = s.hostReply := rfl
@[simp] theorem txPush_sched (B : List Byte) (s : State) : (txPush B s).sched = s.sched := rfl
@[simp] theorem txPush_phase (B : List Byte) (s : State) : (txPush B s).phase = s.phase := rfl

/-! ## `send` -/

@[simp] theorem send_cfg (B : List Byte) (s : State) : (send B s).cfg = s.cfg := by
  unfold send; split <;> rfl
@[simp] theorem send_now (B : List Byte) (s : State) : (send B s).now = s.now := by
  unfold send; split <;> rfl
@[simp] theorem send_currentFloor (B : List Byte) (s : State) : (send B s).currentFloor = s.currentFloor := by
  unfold send; split <;> rfl
@[simp] theorem send_targetFloor (B : List Byte) (s : State) : (send B s).targetFloor = s.targetFloor := by
  unfold send; split <;> rfl
@[simp] theorem send_loadWeight (B : List Byte) (s : State) : (send B s).loadWeight = s.loadWeight := by
  unfold send; split <;> rfl
@[simp] theorem send_moving (B : List Byte) (s : State) : (send B s).moving = s.moving := by
  unfold send; split <;> rfl
@[simp] theorem send_doorStatus (B : List Byte) (s : State) : (send B s).doorStatus = s.doorStatus := by
  unfold send; split <;> rfl
@[simp] theorem send_linkState (B : List Byte) (s : State) : (send B s).linkState = s.linkState := by
  unfold send; split <;> rfl
@[simp] theorem send_failCnt (B : List Byte) (s : State) : (send B s).failCnt = s.failCnt := by
  unfold send; split <;> rfl
@[simp] theorem send_linkEnable (B : List Byte) (s : State) : (send B s).linkEnable = s.linkEnable := by
  unfold send; split <;> rfl
@[simp] theorem send_attemptCnt (B : List Byte) (s : State) : (send B s).attemptCnt = s.attemptCnt := by
  unfold send; split <;> rfl
@[simp] theorem send_backoffT0 (B : List Byte) (s : State) : (send B s).backoffT0 = s.backoffT0 := by
  unfold send; split <;> rfl
@[simp] theorem send_backoffDelay (B : List Byte) (s : State) : (send B s).backoffDelay = s.backoffDelay := by
  unfold send; split <;> rfl
@[simp] theorem send_lastRxTime (B : List Byte) (s : State) : (send B s).lastRxTime = s.lastRxTime := by
  unfold send; split <;> rfl
@[simp] theorem send_pendValid (B : List Byte) (s : State) : (send B s).pendValid = s.pendValid := by
  unfold send; split <;> rfl
@[simp] theorem send_pendDn (B : List Byte) (s : State) : (send B s).pendDn = s.pendDn := by
  unfold send; split <;> rfl
@[simp] theorem send_pendValue (B : List Byte) (s : State) : (send B s).pendValue = s.pendValue := by
  unfold send; split <;> rfl
@[simp] theorem send_retryCnt (B : List Byte) (s : State) : (send B s).retryCnt = s.retryCnt := by
  unfold send; split <;> rfl
@[simp] theorem send_ackT0 (B : List Byte) (s : State) : (send B s).ackT0 = s.ackT0 := by
  unfold send; split <;> rfl
@[simp] theorem send_sessState (B : List Byte) (s : State) : (send B s).sessState = s.sessState := by
  unfold send; split <;> rfl
@[simp] theorem send_dedup (B : List Byte) (s : State) : (send B s).dedup = s.dedup := by
  unfold send; split <;> rfl
@[simp] theorem send_rxBuf (B : List Byte) (s : State) : (send B s).rxBuf = s.rxBuf := by
  unfold send; split <;> rfl
@[simp] theorem send_scanPc (B : List Byte) (s : State) : (send B s).scanPc = s.scanPc := by
  unfold send; split <;> rfl
@[simp] theorem send_fq (B : List Byte) (s : State) : (send B s).fq = s.fq := by
  unfold send; split <;> rfl
@[simp] theorem send_txActive (B : List Byte) (s : State) : (send B s).txActive = s.txActive := by
  unfold send; split <;> rfl
@[simp] theorem send_txIdx (B : List Byte) (s : State) : (send B s).txIdx = s.txIdx := by
  unfold send; split <;> rfl
@[simp] theorem send_lineOut (B : List Byte) (s : State) : (send B s).lineOut = s.lineOut := by
  unfold send; split <;> rfl
@[simp] theorem send_devOut (B : List Byte) (s : State) : (send B s).devOut = s.devOut := by
  unfold send; split <;> rfl
@[simp] theorem send_hostReply (B : List Byte) (s : State) : (send B s).hostReply = s.hostReply := by
  unfold send; split <;> rfl
@[simp] theorem send_sched (B : List Byte) (s : State) : (send B s).sched = s.sched := by
  unfold send; split <;> rfl
@[simp] theorem send_phase (B : List Byte) (s : State) : (send B s).phase = s.phase := by
  unfold send; split <;> rfl

/-! ## `dedupUpdate` -/

@[simp] theorem dedupUpdate_cfg (d v : W16) (s : State) : (dedupUpdate d v s).cfg = s.cfg := by
  unfold dedupUpdate; split <;> rfl
@[simp] theorem dedupUpdate_now (d v : W16) (s : State) : (dedupUpdate d v s).now = s.now := by
  unfold dedupUpdate; split <;> rfl
@[simp] theorem dedupUpdate_currentFloor (d v : W16) (s : State) : (dedupUpdate d v s).currentFloor = s.currentFloor := by
  unfold dedupUpdate; split <;> rfl
@[simp] theorem dedupUpdate_targetFloor (d v : W16) (s : State) : (dedupUpdate d v s).targetFloor = s.targetFloor := by
  unfold dedupUpdate; split <;> rfl
@[simp] theorem dedupUpdate_loadWeight (d v : W16) (s : State) : (dedupUpdate d v s).loadWeight = s.loadWeight := by
  unfold dedupUpdate; split <;> rfl
@[simp] theorem dedupUpdate_moving (d v : W16) (s : State) : (dedupUpdate d v s).moving = s.moving := by
  unfold dedupUpdate; split <;> rfl
@[simp] theorem dedupUpdate_doorStatus (d v : W16) (s : State) : (dedupUpdate d v s).doorStatus = s.doorStatus := by
  unfold dedupUpdate; split <;> rfl
@[simp] theorem dedupUpdate_linkState (d v : W16) (s : State) : (dedupUpdate d v s).linkState = s.linkState := by
  unfold dedupUpdate; split <;> rfl
@[simp] theorem dedupUpdate_failCnt (d v : W16) (s : State) : (dedupUpdate d v s).failCnt = s.failCnt := by
  unfold dedupUpdate; split <;> rfl
@[simp] theorem dedupUpdate_linkEnable (d v : W16) (s : State) : (dedupUpdate d v s).linkEnable = s.linkEnable := by
  unfold dedupUpdate; split <;> rfl
@[simp] theorem dedupUpdate_attemptCnt (d v : W16) (s : State) : (dedupUpdate d v s).attemptCnt = s.attemptCnt := by
  unfold dedupUpdate; split <;> rfl
@[simp] theorem dedupUpdate_backoffT0 (d v : W16) (s : State) : (dedupUpdate d v s).backoffT0 = s.backoffT0 := by
  unfold dedupUpdate; split <;> rfl
@[simp] theorem dedupUpdate_backoffDelay (d v : W16) (s : State) : (dedupUpdate d v s).backoffDelay = s.backoffDelay := by
  unfold dedupUpdate; split <;> rfl
@[simp] theorem dedupUpdate_lastRxTime (d v : W16) (s : State) : (dedupUpdate d v s).lastRxTime = s.lastRxTime := by
  unfold dedupUpdate; split <;> rfl
@[simp] theorem dedupUpdate_pendValid (d v : W16) (s : State) : (dedupUpdate d v s).pendValid = s.pendValid := by
  unfold dedupUpdate; split <;> rfl
@[simp] theorem dedupUpdate_pendDn (d v : W16) (s : State) : (dedupUpdate d v s).pendDn = s.pendDn := by
  unfold dedupUpdate; split <;> rfl
@[simp] theorem dedupUpdate_pendValue (d v : W16) (s : State) : (dedupUpdate d v s).pendValue = s.pendValue := by
  unfold dedupUpdate; split <;> rfl
@[simp] theorem dedupUpdate_retryCnt (d v : W16) (s : State) : (dedupUpdate d v s).retryCnt = s.retryCnt := by
  unfold dedupUpdate; split <;> rfl
@[simp] theorem dedupUpdate_ackT0 (d v : W16) (s : State) : (dedupUpdate d v s).ackT0 = s.ackT0 := by
  unfold dedupUpdate; split <;> rfl
@[simp] theorem dedupUpdate_sessState (d v : W16) (s : State) : (dedupUpdate d v s).sessState = s.sessState := by
  unfold dedupUpdate; split <;> rfl
@[simp] theorem dedupUpdate_rxBuf (d v : W16) (s : State) : (dedupUpdate d v s).rxBuf = s.rxBuf := by
  unfold dedupUpdate; split <;> rfl
@[simp] theorem dedupUpdate_scanPc (d v : W16) (s : State) : (dedupUpdate d v s).scanPc = s.scanPc := by
  unfold dedupUpdate; split <;> rfl
@[simp] theorem dedupUpdate_fq (d v : W16) (s : State) : (dedupUpdate d v s).fq = s.fq := by
  unfold dedupUpdate; split <;> rfl
@[simp] theorem dedupUpdate_txq (d v : W16) (s : State) : (dedupUpdate d v s).txq = s.txq := by
  unfold dedupUpdate; split <;> rfl
@[simp] theorem dedupUpdate_txActive (d v : W16) (s : State) : (dedupUpdate d v s).txActive = s.txActive := by
  unfold dedupUpdate; split <;> rfl
@[simp] theorem dedupUpdate_txIdx (d v : W16) (s : State) : (dedupUpdate d v s).txIdx = s.txIdx := by
  unfold dedupUpdate; split <;> rfl
@[simp] theorem dedupUpdate_events (d v : W16) (s : State) : (dedupUpdate d v s).events = s.events := by
  unfold dedupUpdate; split <;> rfl
@[simp] theorem dedupUpdate_lineOut (d v : W16) (s : State) : (dedupUpdate d v s).lineOut = s.lineOut := by
  unfold dedupUpdate; split <;> rfl
@[simp] theorem dedupUpdate_devOut (d v : W16) (s : State) : (dedupUpdate d v s).devOut = s.devOut := by
  unfold dedupUpdate; split <;> rfl
@[simp] theorem dedupUpdate_hostReply (d v : W16) (s : State) : (dedupUpdate d v s).hostReply = s.hostReply := by
  unfold dedupUpdate; split <;> rfl
@[simp] theorem dedupUpdate_sched (d v : W16) (s : State) : (dedupUpdate d v s).sched = s.sched := by
  unfold dedupUpdate; split <;> rfl
@[simp] theorem dedupUpdate_phase (d v : W16) (s : State) : (dedupUpdate d v s).phase = s.phase := by
  unfold dedupUpdate; split <;> rfl

/-! ## `setSess` -/

@[simp] theorem setSess_cfg (n : SessState) (s : State) : (setSess n s).cfg = s.cfg := by
  unfold setSess; split <;> rfl
@[simp] theorem setSess_now (n : SessState) (s : State) : (setSess n s).now = s.now := by
  unfold setSess; split <;> rfl
@[simp] theorem setSess_currentFloor (n : SessState) (s : State) : (setSess n s).currentFloor = s.currentFloor := by
  unfold setSess; split <;> rfl
@[simp] theorem setSess_targetFloor (n : SessState) (s : State) : (setSess n s).targetFloor = s.targetFloor := by
  unfold setSess; split <;> rfl
@[simp] theorem setSess_loadWeight (n : SessState) (s : State) : (setSess n s).loadWeight = s.loadWeight := by
  unfold setSess; split <;> rfl
@[simp] theorem setSess_moving (n : SessState) (s : State) : (setSess n s).moving = s.moving := by
  unfold setSess; split <;> rfl
@[simp] theorem setSess_doorStatus (n : SessState) (s : State) : (setSess n s).doorStatus = s.doorStatus := by
  unfold setSess; split <;> rfl
@[simp] theorem setSess_linkState (n : SessState) (s : State) : (setSess n s).linkState = s.linkState := by
  unfold setSess; split <;> rfl
@[simp] theorem setSess_failCnt (n : SessState) (s : State) : (setSess n s).failCnt = s.failCnt := by
  unfold setSess; split <;> rfl
@[simp] theorem setSess_linkEnable (n : SessState) (s : State) : (setSess n s).linkEnable = s.linkEnable := by
  unfold setSess; split <;> rfl
@[simp] theorem setSess_attemptCnt (n : SessState) (s : State) : (setSess n s).attemptCnt = s.attemptCnt := by
  unfold setSess; split <;> rfl
@[simp] theorem setSess_backoffT0 (n : SessState) (s : State) : (setSess n s).backoffT0 = s.backoffT0 := by
  unfold setSess; split <;> rfl
@[simp] theorem setSess_backoffDelay (n : SessState) (s : State) : (setSess n s).backoffDelay = s.backoffDelay := by
  unfold setSess; split <;> rfl
@[simp] theorem setSess_lastRxTime (n : SessState) (s : State) : (setSess n s).lastRxTime = s.lastRxTime := by
  unfold setSess; split <;> rfl
@[simp] theorem setSess_pendValid (n : SessState) (s : State) : (setSess n s).pendValid = s.pendValid := by
  unfold setSess; split <;> rfl
@[simp] theorem setSess_pendDn (n : SessState) (s : State) : (setSess n s).pendDn = s.pendDn := by
  unfold setSess; split <;> rfl
@[simp] theorem setSess_pendValue (n : SessState) (s : State) : (setSess n s).pendValue = s.pendValue := by
  unfold setSess; split <;> rfl
@[simp] theorem setSess_retryCnt (n : SessState) (s : State) : (setSess n s).retryCnt = s.retryCnt := by
  unfold setSess; split <;> rfl
@[simp] theorem setSess_ackT0 (n : SessState) (s : State) : (setSess n s).ackT0 = s.ackT0 := by
  unfold setSess; split <;> rfl
@[simp] theorem setSess_sessState (n : SessState) (s : State) : (setSess n s).sessState = n := by
  unfold setSess; split <;> simp_all
@[simp] theorem setSess_dedup (n : SessState) (s : State) : (setSess n s).dedup = s.dedup := by
  unfold setSess; split <;> rfl
@[simp] theorem setSess_rxBuf (n : SessState) (s : State) : (setSess n s).rxBuf = s.rxBuf := by
  unfold setSess; split <;> rfl
@[simp] theorem setSess_scanPc (n : SessState) (s : State) : (setSess n s).scanPc = s.scanPc := by
  unfold setSess; split <;> rfl
@[simp] theorem setSess_fq (n : SessState) (s : State) : (setSess n s).fq = s.fq := by
  unfold setSess; split <;> rfl
@[simp] theorem setSess_txq (n : SessState) (s : State) : (setSess n s).txq = s.txq := by
  unfold setSess; split <;> rfl
@[simp] theorem setSess_txActive (n : SessState) (s : State) : (setSess n s).txActive = s.txActive := by
  unfold setSess; split <;> rfl
@[simp] theorem setSess_txIdx (n : SessState) (s : State) : (setSess n s).txIdx = s.txIdx := by
  unfold setSess; split <;> rfl
@[simp] theorem setSess_lineOut (n : SessState) (s : State) : (setSess n s).lineOut = s.lineOut := by
  unfold setSess; split <;> rfl
@[simp] theorem setSess_devOut (n : SessState) (s : State) : (setSess n s).devOut = s.devOut := by
  unfold setSess; split <;> rfl
@[simp] theorem setSess_hostReply (n : SessState) (s : State) : (setSess n s).hostReply = s.hostReply := by
  unfold setSess; split <;> rfl
@[simp] theorem setSess_sched (n : SessState) (s : State) : (setSess n s).sched = s.sched := by
  unfold setSess; split <;> rfl
@[simp] theorem setSess_phase (n : SessState) (s : State) : (setSess n s).phase = s.phase := by
  unfold setSess; split <;> rfl

/-! ## `endExchange` -/

@[simp] theorem endExchange_cfg (s : State) : (endExchange s).cfg = s.cfg := rfl
@[simp] theorem endExchange_now (s : State) : (endExchange s).now = s.now := rfl
@[simp] theorem endExchange_currentFloor (s : State) : (endExchange s).currentFloor = s.currentFloor := rfl
@[simp] theorem endExchange_targetFloor (s : State) : (endExchange s).targetFloor = s.targetFloor := rfl
@[simp] theorem endExchange_loadWeight (s : State) : (endExchange s).loadWeight = s.loadWeight := rfl
@[simp] theorem endExchange_moving (s : State) : (endExchange s).moving = s.moving := rfl
@[simp] theorem endExchange_doorStatus (s : State) : (endExchange s).doorStatus = s.doorStatus := rfl
@[simp] theorem endExchange_linkState (s : State) : (endExchange s).linkState = s.linkState := rfl
@[simp] theorem endExchange_failCnt (s : State) : (endExchange s).failCnt = s.failCnt := rfl
@[simp] theorem endExchange_linkEnable (s : State) : (endExchange s).linkEnable = s.linkEnable := rfl
@[simp] theorem endExchange_attemptCnt (s : State) : (endExchange s).attemptCnt = s.attemptCnt := rfl
@[simp] theorem endExchange_backoffT0 (s : State) : (endExchange s).backoffT0 = s.backoffT0 := rfl
@[simp] theorem endExchange_backoffDelay (s : State) : (endExchange s).backoffDelay = s.backoffDelay := rfl
@[simp] theorem endExchange_lastRxTime (s : State) : (endExchange s).lastRxTime = s.lastRxTime := rfl
@[simp] theorem endExchange_pendValid (s : State) : (endExchange s).pendValid = false := rfl
@[simp] theorem endExchange_pendDn (s : State) : (endExchange s).pendDn = s.pendDn := rfl
@[simp] theorem endExchange_pendValue (s : State) : (endExchange s).pendValue = s.pendValue := rfl
@[simp] theorem endExchange_retryCnt (s : State) : (endExchange s).retryCnt = 0 := rfl
@[simp] theorem endExchange_ackT0 (s : State) : (endExchange s).ackT0 = s.ackT0 := rfl
@[simp] theorem endExchange_sessState (s : State) : (endExchange s).sessState = s.sessState := rfl
@[simp] theorem endExchange_dedup (s : State) : (endExchange s).dedup = s.dedup := rfl
@[simp] theorem endExchange_rxBuf (s : State) : (endExchange s).rxBuf = s.rxBuf := rfl
@[simp] theorem endExchange_scanPc (s : State) : (endExchange s).scanPc = s.scanPc := rfl
@[simp] theorem endExchange_fq (s : State) : (endExchange s).fq = s.fq := rfl
@[simp] theorem endExchange_txq (s : State) : (endExchange s).txq = s.txq := rfl
@[simp] theorem endExchange_txActive (s : State) : (endExchange s).txActive = s.txActive := rfl
@[simp] theorem endExchange_txIdx (s : State) : (endExchange s).txIdx = s.txIdx := rfl
@[simp] theorem endExchange_events (s : State) : (endExchange s).events = s.events := rfl
@[simp] theorem endExchange_lineOut (s : State) : (endExchange s).lineOut = s.lineOut := rfl
@[simp] theorem endExchange_devOut (s : State) : (endExchange s).devOut = s.devOut := rfl
@[simp] theorem endExchange_hostReply (s : State) : (endExchange s).hostReply = s.hostReply := rfl
@[simp] theorem endExchange_sched (s : State) : (endExchange s).sched = s.sched := rfl
@[simp] theorem endExchange_phase (s : State) : (endExchange s).phase = s.phase := rfl

/-! ## `cancelExchange` -/

@[simp] theorem cancelExchange_cfg (s : State) : (cancelExchange s).cfg = s.cfg := by
  unfold cancelExchange; split <;> rfl
@[simp] theorem cancelExchange_now (s : State) : (cancelExchange s).now = s.now := by
  unfold cancelExchange; split <;> rfl
@[simp] theorem cancelExchange_currentFloor (s : State) : (cancelExchange s).currentFloor = s.currentFloor := by
  unfold cancelExchange; split <;> rfl
@[simp] theorem cancelExchange_targetFloor (s : State) : (cancelExchange s).targetFloor = s.targetFloor := by
  unfold cancelExchange; split <;> rfl
@[simp] theorem cancelExchange_loadWeight (s : State) : (cancelExchange s).loadWeight = s.loadWeight := by
  unfold cancelExchange; split <;> rfl
@[simp] theorem cancelExchange_moving (s : State) : (cancelExchange s).moving = s.moving := by
  unfold cancelExchange; split <;> rfl
@[simp] theorem cancelExchange_doorStatus (s : State) : (cancelExchange s).doorStatus = s.doorStatus := by
  unfold cancelExchange; split <;> rfl
@[simp] theorem cancelExchange_linkState (s : State) : (cancelExchange s).linkState = s.linkState := by
  unfold cancelExchange; split <;> rfl
@[simp] theorem cancelExchange_failCnt (s : State) : (cancelExchange s).failCnt = s.failCnt := by
  unfold cancelExchange; split <;> rfl
@[simp] theorem cancelExchange_linkEnable (s : State) : (cancelExchange s).linkEnable = s.linkEnable := by
  unfold cancelExchange; split <;> rfl
@[simp] theorem cancelExchange_attemptCnt (s : State) : (cancelExchange s).attemptCnt = s.attemptCnt := by
  unfold cancelExchange; split <;> rfl
@[simp] theorem cancelExchange_backoffT0 (s : State) : (cancelExchange s).backoffT0 = s.backoffT0 := by
  unfold cancelExchange; split <;> rfl
@[simp] theorem cancelExchange_backoffDelay (s : State) : (cancelExchange s).backoffDelay = s.backoffDelay := by
  unfold cancelExchange; split <;> rfl
@[simp] theorem cancelExchange_lastRxTime (s : State) : (cancelExchange s).lastRxTime = s.lastRxTime := by
  unfold cancelExchange; split <;> rfl
@[simp] theorem cancelExchange_pendValid (s : State) : (cancelExchange s).pendValid = false := by
  unfold cancelExchange; split <;> simp_all
@[simp] theorem cancelExchange_pendDn (s : State) : (cancelExchange s).pendDn = s.pendDn := by
  unfold cancelExchange; split <;> rfl
@[simp] theorem cancelExchange_pendValue (s : State) : (cancelExchange s).pendValue = s.pendValue := by
  unfold cancelExchange; split <;> rfl
@[simp] theorem cancelExchange_ackT0 (s : State) : (cancelExchange s).ackT0 = s.ackT0 := by
  unfold cancelExchange; split <;> rfl
@[simp] theorem cancelExchange_sessState (s : State) : (cancelExchange s).sessState = s.sessState := by
  unfold cancelExchange; split <;> rfl
@[simp] theorem cancelExchange_dedup (s : State) : (cancelExchange s).dedup = s.dedup := by
  unfold cancelExchange; split <;> rfl
@[simp] theorem cancelExchange_rxBuf (s : State) : (cancelExchange s).rxBuf = s.rxBuf := by
  unfold cancelExchange; split <;> rfl
@[simp] theorem cancelExchange_scanPc (s : State) : (cancelExchange s).scanPc = s.scanPc := by
  unfold cancelExchange; split <;> rfl
@[simp] theorem cancelExchange_fq (s : State) : (cancelExchange s).fq = s.fq := by
  unfold cancelExchange; split <;> rfl
@[simp] theorem cancelExchange_txq (s : State) : (cancelExchange s).txq = s.txq := by
  unfold cancelExchange; split <;> rfl
@[simp] theorem cancelExchange_txActive (s : State) : (cancelExchange s).txActive = s.txActive := by
  unfold cancelExchange; split <;> rfl
@[simp] theorem cancelExchange_txIdx (s : State) : (cancelExchange s).txIdx = s.txIdx := by
  unfold cancelExchange; split <;> rfl
@[simp] theorem cancelExchange_lineOut (s : State) : (cancelExchange s).lineOut = s.lineOut := by
  unfold cancelExchange; split <;> rfl
@[simp] theorem cancelExchange_devOut (s : State) : (cancelExchange s).devOut = s.devOut := by
  unfold cancelExchange; split <;> rfl
@[simp] theorem cancelExchange_hostReply (s : State) : (cancelExchange s).hostReply = s.hostReply := by
  unfold cancelExchange; split <;> rfl
@[simp] theorem cancelExchange_sched (s : State) : (cancelExchange s).sched = s.sched := by
  unfold cancelExchange; split <;> rfl
@[simp] theorem cancelExchange_phase (s : State) : (cancelExchange s).phase = s.phase := by
  unfold cancelExchange; split <;> rfl

/-! ## `flushQueues` -/

@[simp] theorem flushQueues_cfg (s : State) : (flushQueues s).cfg = s.cfg := rfl
@[simp] theorem flushQueues_now (s : State) : (flushQueues s).now = s.now := rfl
@[simp] theorem flushQueues_currentFloor (s : State) : (flushQueues s).currentFloor = s.currentFloor := rfl
@[simp] theorem flushQueues_targetFloor (s : State) : (flushQueues s).targetFloor = s.targetFloor := rfl
@[simp] theorem flushQueues_loadWeight (s : State) : (flushQueues s).loadWeight = s.loadWeight := rfl
@[simp] theorem flushQueues_moving (s : State) : (flushQueues s).moving = s.moving := rfl
@[simp] theorem flushQueues_doorStatus (s : State) : (flushQueues s).doorStatus = s.doorStatus := rfl
@[simp] theorem flushQueues_linkState (s : State) : (flushQueues s).linkState = s.linkState := rfl
@[simp] theorem flushQueues_failCnt (s : State) : (flushQueues s).failCnt = s.failCnt := rfl
@[simp] theorem flushQueues_linkEnable (s : State) : (flushQueues s).linkEnable = s.linkEnable := rfl
@[simp] theorem flushQueues_attemptCnt (s : State) : (flushQueues s).attemptCnt = s.attemptCnt := rfl
@[simp] theorem flushQueues_backoffT0 (s : State) : (flushQueues s).backoffT0 = s.backoffT0 := rfl
@[simp] theorem flushQueues_backoffDelay (s : State) : (flushQueues s).backoffDelay = s.backoffDelay := rfl
@[simp] theorem flushQueues_lastRxTime (s : State) : (flushQueues s).lastRxTime = s.lastRxTime := rfl
@[simp] theorem flushQueues_pendValid (s : State) : (flushQueues s).pendValid = s.pendValid := rfl
@[simp] theorem flushQueues_pendDn (s : State) : (flushQueues s).pendDn = s.pendDn := rfl
@[simp] theorem flushQueues_pendValue (s : State) : (flushQueues s).pendValue = s.pendValue := rfl
@[simp] theorem flushQueues_retryCnt (s : State) : (flushQueues s).retryCnt = s.retryCnt := rfl
@[simp] theorem flushQueues_ackT0 (s : State) : (flushQueues s).ackT0 = s.ackT0 := rfl
@[simp] theorem flushQueues_sessState (s : State) : (flushQueues s).sessState = s.sessState := rfl
@[simp] theorem flushQueues_dedup (s : State) : (flushQueues s).dedup = s.dedup := rfl
@[simp] theorem flushQueues_rxBuf (s : State) : (flushQueues s).rxBuf = [] := rfl
@[simp] theorem flushQueues_scanPc (s : State) : (flushQueues s).scanPc = s.scanPc := rfl
@[simp] theorem flushQueues_fq (s : State) : (flushQueues s).fq = [] := rfl
@[simp] theorem flushQueues_txq (s : State) : (flushQueues s).txq = [] := rfl
@[simp] theorem flushQueues_txActive (s : State) : (flushQueues s).txActive = false := rfl
@[simp] theorem flushQueues_txIdx (s : State) : (flushQueues s).txIdx = 0 := rfl
@[simp] theorem flushQueues_events (s : State) : (flushQueues s).events = s.events := rfl
@[simp] theorem flushQueues_lineOut (s : State) : (flushQueues s).lineOut = s.lineOut := rfl
@[simp] theorem flushQueues_devOut (s : State) : (flushQueues s).devOut = s.devOut := rfl
@[simp] theorem flushQueues_hostReply (s : State) : (flushQueues s).hostReply = s.hostReply := rfl
@[simp] theorem flushQueues_sched (s : State) : (flushQueues s).sched = s.sched := rfl
@[simp] theorem flushQueues_phase (s : State) : (flushQueues s).phase = s.phase := rfl

/-! ## `setTarget` -/

@[simp] theorem setTarget_cfg (t : Option W16) (s : State) : (setTarget t s).cfg = s.cfg := rfl
@[simp] theorem setTarget_now (t : Option W16) (s : State) : (setTarget t s).now = s.now := rfl
@[simp] theorem setTarget_currentFloor (t : Option W16) (s : State) : (setTarget t s).currentFloor = s.currentFloor := rfl
@[simp] theorem setTarget_targetFloor (t : Option W16) (s : State) : (setTarget t s).targetFloor = t := rfl
@[simp] theorem setTarget_loadWeight (t : Option W16) (s : State) : (setTarget t s).loadWeight = s.loadWeight := rfl
@[simp] theorem setTarget_moving (t : Option W16) (s : State) : (setTarget t s).moving = t.isSome := rfl
@[simp] theorem setTarget_doorStatus (t : Option W16) (s : State) : (setTarget t s).doorStatus = s.doorStatus := rfl
@[simp] theorem setTarget_linkState (t : Option W16) (s : State) : (setTarget t s).linkState = s.linkState := rfl
@[simp] theorem setTarget_failCnt (t : Option W16) (s : State) : (setTarget t s).failCnt = s.failCnt := rfl
@[simp] theorem setTarget_linkEnable (t : Option W16) (s : State) : (setTarget t s).linkEnable = s.linkEnable := rfl
@[simp] theorem setTarget_attemptCnt (t : Option W16) (s : State) : (setTarget t s).attemptCnt = s.attemptCnt := rfl
@[simp] theorem setTarget_backoffT0 (t : Option W16) (s : State) : (setTarget t s).backoffT0 = s.backoffT0 := rfl
@[simp] theorem setTarget_backoffDelay (t : Option W16) (s : State) : (setTarget t s).backoffDelay = s.backoffDelay := rfl
@[simp] theorem setTarget_lastRxTime (t : Option W16) (s : State) : (setTarget t s).lastRxTime = s.lastRxTime := rfl
@[simp] theorem setTarget_pendValid (t : Option W16) (s : State) : (setTarget t s).pendValid = s.pendValid := rfl
@[simp] theorem setTarget_pendDn (t : Option W16) (s : State) : (setTarget t s).pendDn = s.pendDn := rfl
@[simp] theorem setTarget_pendValue (t : Option W16) (s : State) : (setTarget t s).pendValue = s.pendValue := rfl
@[simp] theorem setTarget_retryCnt (t : Option W16) (s : State) : (setTarget t s).retryCnt = s.retryCnt := rfl
@[simp] theorem setTarget_ackT0 (t : Option W16) (s : State) : (setTarget t s).ackT0 = s.ackT0 := rfl
@[simp] theorem setTarget_sessState (t : Option W16) (s : State) : (setTarget t s).sessState = s.sessState := rfl
@[simp] theorem setTarget_dedup (t : Option W16) (s : State) : (setTarget t s).dedup = s.dedup := rfl
@[simp] theorem setTarget_rxBuf (t : Option W16) (s : State) : (setTarget t s).rxBuf = s.rxBuf := rfl
@[simp] theorem setTarget_scanPc (t : Option W16) (s : State) : (setTarget t s).scanPc = s.scanPc := rfl
@[simp] theorem setTarget_fq (t : Option W16) (s : State) : (setTarget t s).fq = s.fq := rfl
@[simp] theorem setTarget_txq (t : Option W16) (s : State) : (setTarget t s).txq = s.txq := rfl
@[simp] theorem setTarget_txActive (t : Option W16) (s : State) : (setTarget t s).txActive = s.txActive := rfl
@[simp] theorem setTarget_txIdx (t : Option W16) (s : State) : (setTarget t s).txIdx = s.txIdx := rfl
@[simp] theorem setTarget_events (t : Option W16) (s : State) : (setTarget t s).events = s.events := rfl
@[simp] theorem setTarget_lineOut (t : Option W16) (s : State) : (setTarget t s).lineOut = s.lineOut := rfl
@[simp] theorem setTarget_devOut (t : Option W16) (s : State) : (setTarget t s).devOut = s.devOut := rfl
@[simp] theorem setTarget_hostReply (t : Option W16) (s : State) : (setTarget t s).hostReply = s.hostReply := rfl
@[simp] theorem setTarget_sched (t : Option W16) (s : State) : (setTarget t s).sched = s.sched := rfl
@[simp] theorem setTarget_phase (t : Option W16) (s : State) : (setTarget t s).phase = s.phase := rfl

/-! ## `clearFailures` -/

@[simp] theorem clearFailures_cfg (s : State) : (clearFailures s).cfg = s.cfg := rfl
@[simp] theorem clearFailures_now (s : State) : (clearFailures s).now = s.now := rfl
@[simp] theorem clearFailures_currentFloor (s : State) : (clearFailures s).currentFloor = s.currentFloor := rfl
@[simp] theorem clearFailures_targetFloor (s : State) : (clearFailures s).targetFloor = s.targetFloor := rfl
@[simp] theorem clearFailures_loadWeight (s : State) : (clearFailures s).loadWeight = s.loadWeight := rfl
@[simp] theorem clearFailures_moving (s : State) : (clearFailures s).moving = s.moving := rfl
@[simp] theorem clearFailures_doorStatus (s : State) : (clearFailures s).doorStatus = s.doorStatus := rfl
@[simp] theorem clearFailures_linkState (s : State) : (clearFailures s).linkState = if s.linkState = .degraded then .connected else s.linkState := rfl
@[simp] theorem clearFailures_failCnt (s : State) : (clearFailures s).failCnt = 0 := rfl
@[simp] theorem clearFailures_linkEnable (s : State) : (clearFailures s).linkEnable = s.linkEnable := rfl
@[simp] theorem clearFailures_attemptCnt (s : State) : (clearFailures s).attemptCnt = s.attemptCnt := rfl
@[simp] theorem clearFailures_backoffT0 (s : State) : (clearFailures s).backoffT0 = s.backoffT0 := rfl
@[simp] theorem clearFailures_backoffDelay (s : State) : (clearFailures s).backoffDelay = s.backoffDelay := rfl
@[simp] theorem clearFailures_lastRxTime (s : State) : (clearFailures s).lastRxTime = s.lastRxTime := rfl
@[simp] theorem clearFailures_pendValid (s : State) : (clearFailures s).pendValid = s.pendValid := rfl
@[simp] theorem clearFailures_pendDn (s : State) : (clearFailures s).pendDn = s.pendDn := rfl
@[simp] theorem clearFailures_pendValue (s : State) : (clearFailures s).pendValue = s.pendValue := rfl
@[simp] theorem clearFailures_retryCnt (s : State) : (clearFailures s).retryCnt = s.retryCnt := rfl
@[simp] theorem clearFailures_ackT0 (s : State) : (clearFailures s).ackT0 = s.ackT0 := rfl
@[simp] theorem clearFailures_sessState (s : State) : (clearFailures s).sessState = s.sessState := rfl
@[simp] theorem clearFailures_dedup (s : State) : (clearFailures s).dedup = s.dedup := rfl
@[simp] theorem clearFailures_rxBuf (s : State) : (clearFailures s).rxBuf = s.rxBuf := rfl
@[simp] theorem clearFailures_scanPc (s : State) : (clearFailures s).scanPc = s.scanPc := rfl
@[simp] theorem clearFailures_fq (s : State) : (clearFailures s).fq = s.fq := rfl
@[simp] theorem clearFailures_txq (s : State) : (clearFailures s).txq = s.txq := rfl
@[simp] theorem clearFailures_txActive (s : State) : (clearFailures s).txActive = s.txActive := rfl
@[simp] theorem clearFailures_txIdx (s : State) : (clearFailures s).txIdx = s.txIdx := rfl
@[simp] theorem clearFailures_events (s : State) : (clearFailures s).events = s.events := rfl
@[simp] theorem clearFailures_lineOut (s : State) : (clearFailures s).lineOut = s.lineOut := rfl
@[simp] theorem clearFailures_devOut (s : State) : (clearFailures s).devOut = s.devOut := rfl
@[simp] theorem clearFailures_hostReply (s : State) : (clearFailures s).hostReply = s.hostReply := rfl
@[simp] theorem clearFailures_sched (s : State) : (clearFailures s).sched = s.sched := rfl
@[simp] theorem clearFailures_phase (s : State) : (clearFailures s).phase = s.phase := rfl

/-! ## `degrade` -/

@[simp] theorem degrade_cfg (s : State) : (degrade s).cfg = s.cfg := rfl
@[simp] theorem degrade_now (s : State) : (degrade s).now = s.now := rfl
@[simp] theorem degrade_currentFloor (s : State) : (degrade s).currentFloor = s.currentFloor := rfl
@[simp] theorem degrade_targetFloor (s : State) : (degrade s).targetFloor = s.targetFloor := rfl
@[simp] theorem degrade_loadWeight (s : State) : (degrade s).loadWeight = s.loadWeight := rfl
@[simp] theorem degrade_moving (s : State) : (degrade s).moving = s.moving := rfl
@[simp] theorem degrade_doorStatus (s : State) : (degrade s).doorStatus = s.doorStatus := rfl
@[simp] theorem degrade_linkState (s : State) : (degrade s).linkState = .degraded := rfl
@[simp] theorem degrade_failCnt (s : State) : (degrade s).failCnt = s.failCnt + 1 := rfl
@[simp] theorem degrade_linkEnable (s : State) : (degrade s).linkEnable = s.linkEnable := rfl
@[simp] theorem degrade_attemptCnt (s : State) : (degrade s).attemptCnt = s.attemptCnt := rfl
@[simp] theorem degrade_backoffT0 (s : State) : (degrade s).backoffT0 = s.backoffT0 := rfl
@[simp] theorem degrade_backoffDelay (s : State) : (degrade s).backoffDelay = s.backoffDelay := rfl
@[simp] theorem degrade_lastRxTime (s : State) : (degrade s).lastRxTime = s.lastRxTime := rfl
@[simp] theorem degrade_pendValid (s : State) : (degrade s).pendValid = s.pendValid := rfl
@[simp] theorem degrade_pendDn (s : State) : (degrade s).pendDn = s.pendDn := rfl
@[simp] theorem degrade_pendValue (s : State) : (degrade s).pendValue = s.pendValue := rfl
@[simp] theorem degrade_retryCnt (s : State) : (degrade s).retryCnt = s.retryCnt := rfl
@[simp] theorem degrade_ackT0 (s : State) : (degrade s).ackT0 = s.ackT0 := rfl
@[simp] theorem degrade_sessState (s : State) : (degrade s).sessState = s.sessState := rfl
@[simp] theorem degrade_dedup (s : State) : (degrade s).dedup = s.dedup := rfl
@[simp] theorem degrade_rxBuf (s : State) : (degrade s).rxBuf = s.rxBuf := rfl
@[simp] theorem degrade_scanPc (s : State) : (degrade s).scanPc = s.scanPc := rfl
@[simp] theorem degrade_fq (s : State) : (degrade s).fq = s.fq := rfl
@[simp] theorem degrade_txq (s : State) : (degrade s).txq = s.txq := rfl
@[simp] theorem degrade_txActive (s : State) : (degrade s).txActive = s.txActive := rfl
@[simp] theorem degrade_txIdx (s : State) : (degrade s).txIdx = s.txIdx := rfl
@[simp] theorem degrade_events (s : State) : (degrade s).events = s.events := rfl
@[simp] theorem degrade_lineOut (s : State) : (degrade s).lineOut = s.lineOut := rfl
@[simp] theorem degrade_devOut (s : State) : (degrade s).devOut = s.devOut := rfl
@[simp] theorem degrade_hostReply (s : State) : (degrade s).hostReply = s.hostReply := rfl
@[simp] theorem degrade_sched (s : State) : (degrade s).sched = s.sched := rfl
@[simp] theorem degrade_phase (s : State) : (degrade s).phase = s.phase := rfl

/-! ## `beginStep` -/

@[simp] theorem beginStep_cfg (s : State) : (beginStep s).cfg = s.cfg := rfl
@[simp] theorem beginStep_now (s : State) : (beginStep s).now = s.now := rfl
@[simp] theorem beginStep_currentFloor (s : State) : (beginStep s).currentFloor = s.currentFloor := rfl
@[simp] theorem beginStep_targetFloor (s : State) : (beginStep s).targetFloor = s.targetFloor := rfl
@[simp] theorem beginStep_loadWeight (s : State) : (beginStep s).loadWeight = s.loadWeight := rfl
@[simp] theorem beginStep_moving (s : State) : (beginStep s).moving = s.moving := rfl
@[simp] theorem beginStep_doorStatus (s : State) : (beginStep s).doorStatus = s.doorStatus := rfl
@[simp] theorem beginStep_linkState (s : State) : (beginStep s).linkState = s.linkState := rfl
@[simp] theorem beginStep_failCnt (s : State) : (beginStep s).failCnt = s.failCnt := rfl
@[simp] theorem beginStep_linkEnable (s : State) : (beginStep s).linkEnable = s.linkEnable := rfl
@[simp] theorem beginStep_attemptCnt (s : State) : (beginStep s).attemptCnt = s.attemptCnt := rfl
@[simp] theorem beginStep_backoffT0 (s : State) : (beginStep s).backoffT0 = s.backoffT0 := rfl
@[simp] theorem beginStep_backoffDelay (s : State) : (beginStep s).backoffDelay = s.backoffDelay := rfl
@[simp] theorem beginStep_lastRxTime (s : State) : (beginStep s).lastRxTime = s.lastRxTime := rfl
@[simp] theorem beginStep_pendValid (s : State) : (beginStep s).pendValid = s.pendValid := rfl
@[simp] theorem beginStep_pendDn (s : State) : (beginStep s).pendDn = s.pendDn := rfl
@[simp] theorem beginStep_pendValue (s : State) : (beginStep s).pendValue = s.pendValue := rfl
@[simp] theorem beginStep_retryCnt (s : State) : (beginStep s).retryCnt = s.retryCnt := rfl
@[simp] theorem beginStep_ackT0 (s : State) : (beginStep s).ackT0 = s.ackT0 := rfl
@[simp] theorem beginStep_sessState (s : State) : (beginStep s).sessState = s.sessState := rfl
@[simp] theorem beginStep_dedup (s : State) : (beginStep s).dedup = s.dedup := rfl
@[simp] theorem beginStep_rxBuf (s : State) : (beginStep s).rxBuf = s.rxBuf := rfl
@[simp] theorem beginStep_scanPc (s : State) : (beginStep s).scanPc = s.scanPc := rfl
@[simp] theorem beginStep_fq (s : State) : (beginStep s).fq = s.fq := rfl
@[simp] theorem beginStep_txq (s : State) : (beginStep s).txq = s.txq := rfl
@[simp] theorem beginStep_txActive (s : State) : (beginStep s).txActive = s.txActive := rfl
@[simp] theorem beginStep_txIdx (s : State) : (beginStep s).txIdx = s.txIdx := rfl
@[simp] theorem beginStep_events (s : State) : (beginStep s).events = s.events := rfl
@[simp] theorem beginStep_lineOut (s : State) : (beginStep s).lineOut = s.lineOut := rfl
@[simp] theorem beginStep_devOut (s : State) : (beginStep s).devOut = s.devOut := rfl
@[simp] theorem beginStep_hostReply (s : State) : (beginStep s).hostReply = none := rfl
@[simp] theorem beginStep_sched (s : State) : (beginStep s).sched = s.sched.tail := rfl
@[simp] theorem beginStep_phase (s : State) : (beginStep s).phase = (nextAction s).turn := rfl

end Sys2Proof.Machine
end

