-- ==== Sys2Proof/Laws/Ops.lean ====
section
/-! SUPPORT. For each shared operation, once, everything it can do. -/

namespace Sys2Proof.Machine

/-! ## Link mode under updates that do not touch it -/

@[simp] theorem linkUp_emit (e : Event) (s : State) : linkUp (emit e s) = linkUp s := rfl
@[simp] theorem linkUp_raise (e : Error) (s : State) : linkUp (raise e s) = linkUp s := rfl
@[simp] theorem linkUp_fqPop (s : State) : linkUp (fqPop s) = linkUp s := rfl
@[simp] theorem linkUp_beginStep (s : State) : linkUp (beginStep s) = linkUp s := rfl
@[simp] theorem linkUp_send (B : List Byte) (s : State) : linkUp (send B s) = linkUp s := by
  simp [linkUp]

theorem linkUp_iff (s : State) : linkUp s = true ↔ s.linkState = .connected ∨ s.linkState = .degraded := by
  unfold linkUp; cases s.linkState <;> simp [LinkState.up]

theorem linkUp_false_iff (s : State) :
    linkUp s = false ↔ s.linkState = .disconnected ∨ s.linkState = .connecting := by
  unfold linkUp; cases s.linkState <;> simp [LinkState.up]

/-! ## Sending, frames, commands -/

theorem send_up {s : State} (h : linkUp s = true) (B : List Byte) : send B s = txPush B s := by
  simp [send, h]

theorem send_down {s : State} (h : linkUp s = false) (B : List Byte) : send B s = raise .linkNotReady s := by
  simp [send, h]

theorem frameReady_iff (s : State) :
    frameReady s = true ↔ linkUp s = true ∧ s.txq.length + 2 ≤ s.cfg.txqDepth := by
  simp [frameReady, txqRoom]

/-- An `X-FRAME` step either executes the frame it pops or waits. -/
theorem onFrame_next {body : State → State} {s t : State} (h : onFrame body s = .next t) :
    (frameReady s = true ∧ t = body (fqPop s)) ∨ (frameReady s = false ∧ t = s) := by
  unfold onFrame at h
  split at h
  · rename_i hr
    injection h with h
    exact .inl ⟨hr, h.symm⟩
  · rename_i hr
    injection h with h
    exact .inr ⟨by simpa using hr, h.symm⟩

theorem onFrame_ready {s : State} (h : frameReady s = true) (body : State → State) :
    onFrame body s = .next (body (fqPop s)) := by
  simp [onFrame, h]

theorem onFrame_waits {s : State} (h : frameReady s = false) (body : State → State) : onFrame body s = .next s := by
  simp [onFrame, h]

/-- A CommandFrame is ignored, suppressed or goes on to its own effect. -/
theorem onCommand_cases (st : Station) (dn v : W16) (body : State → State) (s : State) :
    (st ≠ s.cfg.ownId ∧ onCommand st dn v body s = emit (.ignored st dn v) s)
    ∨ (st = s.cfg.ownId ∧ isDuplicate dn v s = true ∧ onCommand st dn v body s = emit (.duplicate dn v) (sendAck s))
    ∨ (st = s.cfg.ownId ∧ isDuplicate dn v s = false
      ∧ onCommand st dn v body s = body (emit (.report dn v) (dedupUpdate dn v (sendAck s)))) := by
  unfold onCommand
  by_cases h : st = s.cfg.ownId
  · cases hd : isDuplicate dn v s <;> simp [h]
  · simp [h]

theorem ifConsumed_cases (dn v : W16) (body : State → State) (s : State) :
    (consumes s.cfg dn = true ∧ ifConsumed dn v body s = body s)
    ∨ (consumes s.cfg dn = false ∧ ifConsumed dn v body s = emit (.unhandled dn v) s) := by
  unfold ifConsumed
  cases consumes s.cfg dn <;> simp

/-! ## The dedup table -/

theorem dedupRead_write_same (t : List DedupEntry) (dn v : W16) (ts : W32) :
    dedupRead (dedupWrite t dn v ts) dn = some (v, ts) := by
  induction t with
  | nil => simp [dedupWrite, dedupRead]
  | cons e r ih =>
    simp only [dedupWrite]
    split
    · simp [dedupRead]
    · split
      · simp [dedupRead]
      · rename_i h
        simp [dedupRead, h, ih]

theorem dedupRead_write_other (t : List DedupEntry) {dn d : W16} (v : W16) (ts : W32) (h : d ≠ dn) :
    dedupRead (dedupWrite t dn v ts) d = dedupRead t d := by
  induction t with
  | nil => simp [dedupWrite, dedupRead, h.symm]
  | cons e r ih =>
    simp only [dedupWrite]
    split
    · simp [dedupRead, h.symm]
    · split
      · rename_i he
        simp [dedupRead, he, h.symm]
      · simp only [dedupRead, ih]

/-- The first data number of a table that a write has touched. -/
theorem dedupWrite_head (t : List DedupEntry) (dn v : W16) (ts : W32) :
    ∃ e r, dedupWrite t dn v ts = e :: r ∧ (e.dn = dn ∨ ∃ e' r', t = e' :: r' ∧ e.dn = e'.dn) := by
  cases t with
  | nil => exact ⟨_, _, rfl, .inl rfl⟩
  | cons a r =>
    simp only [dedupWrite]
    split
    · exact ⟨_, _, rfl, .inl rfl⟩
    · split
      · exact ⟨_, _, rfl, .inl rfl⟩
      · exact ⟨_, _, rfl, .inr ⟨_, _, rfl, rfl⟩⟩

/-- Every write keeps the table's canonical form. -/
theorem dedupWrite_wf (t : List DedupEntry) (dn v : W16) (ts : W32) (h : dedupWf t = true) :
    dedupWf (dedupWrite t dn v ts) = true := by
  induction t with
  | nil => rfl
  | cons a r ih =>
    have hr : dedupWf r = true := by
      cases r with
      | nil => rfl
      | cons b q => simp only [dedupWf, Bool.and_eq_true] at h; exact h.2
    simp only [dedupWrite]
    split
    · rename_i hlt
      simp [dedupWf, hlt, h]
    · rename_i hge
      split
      · rename_i he
        cases r with
        | nil => rfl
        | cons b q =>
          simp only [dedupWf, Bool.and_eq_true, decide_eq_true_eq] at h ⊢
          exact ⟨he ▸ h.1, h.2⟩
      · rename_i hne
        obtain ⟨e, q, hw, hc⟩ := dedupWrite_head r dn v ts
        have hlt : a.dn < e.dn := by
          rcases hc with hc | ⟨e', r', hr', hc⟩
          · rw [hc]
            have h1 : ¬ dn.toNat < a.dn.toNat := fun h2 => hge (BitVec.lt_def.mpr h2)
            have h3 : a.dn.toNat ≠ dn.toNat := fun h4 => hne (BitVec.eq_of_toNat_eq h4)
            exact BitVec.lt_def.mpr (by omega)
          · subst hr'
            simp only [dedupWf, Bool.and_eq_true, decide_eq_true_eq] at h
            rw [hc]; exact h.1
        have hi := ih hr
        rw [hw] at hi ⊢
        simp [dedupWf, hlt, hi]

/-- The table after reset has the canonical form. -/
theorem reset_dedup_wf (c : Config) : dedupWf (State.resetWith c).dedup = true := rfl

theorem dedupUpdate_cases (dn v : W16) (s : State) :
    (isDuplicate dn v s = true ∧ dedupUpdate dn v s = s)
    ∨ (isDuplicate dn v s = false ∧ (dedupUpdate dn v s).dedup = dedupWrite s.dedup dn v s.now) := by
  unfold dedupUpdate
  cases isDuplicate dn v s <;> simp

/-- `IS_DUPLICATE` keeps the table's canonical form. -/
theorem dedupUpdate_wf (dn v : W16) (s : State) (h : dedupWf s.dedup = true) :
    dedupWf (dedupUpdate dn v s).dedup = true := by
  rcases dedupUpdate_cases dn v s with ⟨_, he⟩ | ⟨_, he⟩
  · rw [he]; exact h
  · rw [he]; exact dedupWrite_wf _ _ _ _ h

/-! ## Schedule -/

/-- What stands around a step of the schedule: its turn in the schedule and the last answer on the host port go, and the
reference schedule's turn is the one it leaves. -/
theorem beginStep_of_sched {s : State} {a : Action} {r : List Action} (h : s.sched = a :: r) :
    beginStep s = { s with sched := r, phase := a.turn, hostReply := none } := by
  simp [beginStep, nextAction, h]

/-- The step of an agent leaves the turn with that agent. -/
theorem phaseAction_turn {s : State} {p : Phase} {a : Action} (h : phaseAction s p = some a) : a.turn = p := by
  cases p
  · cases h1 : lOpenEnabled s <;> cases h2 : verdict s <;> cases h3 : lIdleEnabled s <;>
      simp [phaseAction, linkAction, scanAction, h1, h2, h3] at h <;> subst h <;> rfl
  · cases h1 : xFrameEnabled s <;> cases h2 : xTimeoutEnabled s <;>
      simp [phaseAction, sessionAction, h1, h2] at h <;> subst h <;> rfl
  · cases h1 : txByteEnabled s <;> simp [phaseAction, transmitAction, h1] at h
    subst h; rfl

/-- No agent of the block lets time pass. -/
theorem phaseAction_ne_tick (s : State) (p : Phase) : phaseAction s p ≠ some .tick := by
  cases p
  · cases h1 : lOpenEnabled s <;> cases h2 : verdict s <;> cases h3 : lIdleEnabled s <;>
      simp [phaseAction, linkAction, scanAction, h1, h2, h3]
  · cases h1 : xFrameEnabled s <;> cases h2 : xTimeoutEnabled s <;> simp [phaseAction, sessionAction, h1, h2]
  · cases h1 : txByteEnabled s <;> simp [phaseAction, transmitAction, h1]

/-- The first turn is one of the turns named, with a step that is enabled; or no turn has one, and time passes. -/
theorem firstTurn_cases (s : State) (ps : List Phase) :
    (∃ p ∈ ps, phaseAction s p = some (firstTurn s ps))
      ∨ ((∀ p ∈ ps, phaseAction s p = none) ∧ firstTurn s ps = .tick) := by
  induction ps with
  | nil => exact .inr ⟨by simp, rfl⟩
  | cons p r ih =>
    cases h : phaseAction s p with
    | some a => exact .inl ⟨p, by simp, by simp [firstTurn, h]⟩
    | none =>
      rcases ih with ⟨q, hq, he⟩ | ⟨hn, he⟩
      · exact .inl ⟨q, by simp [hq], by simp [firstTurn, h, he]⟩
      · exact .inr ⟨by simpa [h] using hn, by simp [firstTurn, h, he]⟩

/-- An agent whose turn it is goes first while it has an enabled step: `A-LINK` after a step of the environment, `A-PHYTX`
until `txq` is empty. -/
theorem referenceAction_of_phase {s : State} {a : Action} (h : phaseAction s s.phase = some a) :
    referenceAction s = a := by
  unfold referenceAction
  cases hp : s.phase <;> rw [hp] at h <;> simp [Phase.turns, firstTurn, h]

/-- The reference schedule lets time pass only when no agent of the block has an enabled step. -/
theorem referenceAction_tick {s : State} (h : referenceAction s = .tick) (p : Phase) : phaseAction s p = none := by
  rcases firstTurn_cases s s.phase.turns with ⟨q, _, he⟩ | ⟨hn, _⟩
  · exact absurd (by rw [he]; exact congrArg some h) (phaseAction_ne_tick s q)
  · exact hn p (by cases s.phase <;> cases p <;> decide)

/-- Every step is the step of one agent on the state without that turn. -/
theorem step_of_sched {s : State} {a : Action} {r : List Action} (h : s.sched = a :: r) :
    step s = perform a (beginStep s) := by
  simp [step, nextAction, h]

end Sys2Proof.Machine
end

