-- ==== Sys2Proof/Laws/PerInstr.lean ====
section
/-! SUPPORT. Facts about every instruction as syntax, one lemma per constructor. -/

namespace Sys2Proof

/-- How many bits the opcode table gives an instruction (30_encoding.md R107). -/
def Instr.tableBits (i : Instr) : Nat :=
  if i.isHostOp then 36
  else
    match i with
    | .ack _ => 40
    | .nak _ => 40
    | _ => 128

/-- How many bits a code has. -/
def Code.bits : Code → Nat
  | .frame B => 8 * B.length
  | .hop _ => 36

/-- An instruction is written in as many bits as the table gives it, whatever the configuration. -/
def Laws.EncodedForm.Statement (i : Instr) : Prop := ∀ c : Config, (encode c i).bits = i.tableBits

theorem Laws.EncodedForm.curFloor (st : Station) (v : W16) : Laws.EncodedForm.Statement (.curFloor st v) := fun _ => rfl
theorem Laws.EncodedForm.tgtFloor (st : Station) (v : W16) : Laws.EncodedForm.Statement (.tgtFloor st v) := fun _ => rfl
theorem Laws.EncodedForm.tgtNone (st : Station) : Laws.EncodedForm.Statement (.tgtNone st) := fun _ => rfl
theorem Laws.EncodedForm.load (st : Station) (v : W16) : Laws.EncodedForm.Statement (.load st v) := fun _ => rfl
theorem Laws.EncodedForm.floorSet (st : Station) (v : W16) : Laws.EncodedForm.Statement (.floorSet st v) := fun _ => rfl
theorem Laws.EncodedForm.doorCtl (st : Station) (v : W16) : Laws.EncodedForm.Statement (.doorCtl st v) := fun _ => rfl
theorem Laws.EncodedForm.doorStop (st : Station) : Laws.EncodedForm.Statement (.doorStop st) := fun _ => rfl
theorem Laws.EncodedForm.doorOpen (st : Station) : Laws.EncodedForm.Statement (.doorOpen st) := fun _ => rfl
theorem Laws.EncodedForm.doorClose (st : Station) : Laws.EncodedForm.Statement (.doorClose st) := fun _ => rfl
theorem Laws.EncodedForm.ping (st : Station) (v : W16) : Laws.EncodedForm.Statement (.ping st v) := fun _ => rfl
theorem Laws.EncodedForm.pong (st : Station) (v : W16) : Laws.EncodedForm.Statement (.pong st v) := fun _ => rfl
theorem Laws.EncodedForm.statusReq (st : Station) (v : W16) : Laws.EncodedForm.Statement (.statusReq st v) := fun _ => rfl
theorem Laws.EncodedForm.statusRsp (st : Station) (v : W16) : Laws.EncodedForm.Statement (.statusRsp st v) := fun _ => rfl
theorem Laws.EncodedForm.controlReq (st : Station) (v : W16) : Laws.EncodedForm.Statement (.controlReq st v) := fun _ => rfl
theorem Laws.EncodedForm.controlAck (st : Station) (v : W16) : Laws.EncodedForm.Statement (.controlAck st v) := fun _ => rfl
theorem Laws.EncodedForm.floorCmd (st : Station) (v : W16) : Laws.EncodedForm.Statement (.floorCmd st v) := fun _ => rfl
theorem Laws.EncodedForm.doorCmd (st : Station) (v : W16) : Laws.EncodedForm.Statement (.doorCmd st v) := fun _ => rfl
theorem Laws.EncodedForm.unknownDn (st : Station) (dn v : W16) : Laws.EncodedForm.Statement (.unknownDn st dn v) := fun _ => rfl
theorem Laws.EncodedForm.ack (st : Station) : Laws.EncodedForm.Statement (.ack st) := fun _ => rfl
theorem Laws.EncodedForm.nak (st : Station) : Laws.EncodedForm.Statement (.nak st) := fun _ => rfl
theorem Laws.EncodedForm.nop : Laws.EncodedForm.Statement .nop := fun _ => rfl
theorem Laws.EncodedForm.start : Laws.EncodedForm.Statement .start := fun _ => rfl
theorem Laws.EncodedForm.stop : Laws.EncodedForm.Statement .stop := fun _ => rfl
theorem Laws.EncodedForm.issue (dn v : W16) : Laws.EncodedForm.Statement (.issue dn v) := fun _ => rfl
theorem Laws.EncodedForm.snapshot : Laws.EncodedForm.Statement .snapshot := fun _ => rfl

end Sys2Proof
end

