-- ==== Sys2Proof/Tests/Slice0.lean ====
section
/-! SUPPORT. Tests: ill-formed terms refused, words written out from the spec's encodings decoded, one step of each
instruction, and for each statement with hypotheses a witness that meets them. Expected values come from
95_test_vectors.md, or are worked by hand from the rule that the comment names. -/

namespace Sys2Proof.Tests

open Sys2Proof.Machine

/-! ## Helpers -/

/-- The next state, if there is one. -/
def nextOf : Host.Outcome State Fault Refusal → Option State
  | .next s => some s
  | .fault _ => none
  | .refused _ => none

/-- Station "0001". -/
def id1 : Station := ⟨0x30, 0x30, 0x30, 0x31⟩

/-- Station "0002". -/
def id2 : Station := ⟨0x30, 0x30, 0x30, 0x32⟩

/-- The Controller with every row in force: station "0001", peer "0002". -/
def ctl : Config := Config.allRows

/-- The DataSource at the other end, with every row in force. -/
def src : Config := { Config.allRows with ownId := id2, peerId := id1, role := .dataSource }

/-- Link up at time 100, nothing pending. -/
def up (c : Config) : State := { State.resetWith c with linkState := .connected, linkEnable := true, now := 100 }

/-- The next state of an instruction on a state. -/
def run (i : Instr) (s : State) : Option State := nextOf (exec i s)

/-- The next state of one step with action `a`. -/
def act (a : Action) (s : State) : Option State := nextOf (step { s with sched := [a] })

/-! ## WellFormed: one ill-formed term for each check -/

theorem test_config_default_ok : Config.default.ok = true := by decide
theorem test_config_all_rows_ok : Config.allRows.ok = true ∧ src.ok = true := by decide

theorem test_config_refuses_own_id_not_digits : ({ Config.default with ownId := ⟨0x30, 0x30, 0x41, 0x31⟩ } : Config).ok = false := by decide
theorem test_config_refuses_peer_id_not_digits : ({ Config.default with peerId := ⟨0x2F, 0x30, 0x30, 0x32⟩ } : Config).ok = false := by decide
theorem test_config_refuses_same_ids : ({ Config.default with peerId := id1 } : Config).ok = false := by decide
theorem test_config_refuses_ack_timeout_too_long : ({ Config.default with ackTimeout := 2 ^ 31 } : Config).ok = false := by decide
theorem test_config_refuses_dedup_window_too_long : ({ Config.default with dedupWindow := 2 ^ 31 } : Config).ok = false := by decide
theorem test_config_refuses_backoff_max_too_long : ({ Config.default with backoffMax := 2 ^ 31 } : Config).ok = false := by decide
theorem test_config_refuses_idle_timeout_too_long : ({ Config.default with idleTimeout := some (2 ^ 31) } : Config).ok = false := by decide
theorem test_config_refuses_backoff_bounds_crossed : ({ Config.default with backoffMin := 30001 } : Config).ok = false := by decide
theorem test_config_refuses_backoff_min_zero : ({ Config.default with backoffMin := 0 } : Config).ok = false := by decide
theorem test_config_refuses_max_retries_too_many : ({ Config.default with maxRetries := 255 } : Config).ok = false := by decide
theorem test_config_refuses_fail_limit_zero : ({ Config.default with failLimit := 0 } : Config).ok = false := by decide
theorem test_config_refuses_fail_limit_too_high : ({ Config.default with failLimit := 256 } : Config).ok = false := by decide
theorem test_config_refuses_reconnect_cap_zero : ({ Config.default with maxReconnect := some 0 } : Config).ok = false := by decide
theorem test_config_refuses_handshake_numbers_equal : ({ Config.default with dnPong := 0x0020 } : Config).ok = false := by decide
theorem test_config_refuses_handshake_number_out_of_range : ({ Config.default with dnDoorCmd := 0x0032 } : Config).ok = false := by decide
theorem test_config_refuses_handshake_number_in_base_registry : ({ Config.default with dnFloorCmd := 0x0011 } : Config).ok = false := by decide
theorem test_config_refuses_rxbuf_too_small : ({ Config.default with rxbufSize := 31 } : Config).ok = false := by decide
theorem test_config_refuses_fq_depth_zero : ({ Config.default with fqDepth := 0 } : Config).ok = false := by decide
theorem test_config_refuses_txq_depth_one : ({ Config.default with txqDepth := 1 } : Config).ok = false := by decide
theorem test_config_refuses_tick_zero : ({ Config.default with tickHz := 0 } : Config).ok = false := by decide
theorem test_config_refuses_clock_below_sixteen_bits : ({ Config.default with clkHz := 153000 } : Config).ok = false := by decide
theorem test_config_refuses_clock_not_multiple_of_tick : ({ Config.default with clkHz := 1000001 } : Config).ok = false := by decide
theorem test_config_bounds_are_met :
    ({ Config.default with
        ackTimeout := 2 ^ 31 - 1, maxRetries := 254, failLimit := 255, maxReconnect := some 1, rxbufSize := 32,
        fqDepth := 1, txqDepth := 2, backoffMin := 30000, idleTimeout := none, clkHz := 154000 } : Config).ok = true := by
  decide
theorem test_frame_refuses_station_letters :
    (Frame.cmd ⟨0x30, 0x30, 0x41, 0x31⟩ 0x0001 0x0001).wf = false
      ∧ (Frame.ackFrame .ack ⟨0x30, 0x30, 0x30, 0x3A⟩).wf = false := by decide

theorem test_instr_refuses_station_letters :
    ([.curFloor ⟨0x30, 0x30, 0x41, 0x31⟩ 0x0001,
      .tgtFloor ⟨0x30, 0x30, 0x41, 0x31⟩ 0x0001,
      .tgtNone ⟨0x30, 0x30, 0x41, 0x31⟩,
      .load ⟨0x30, 0x30, 0x41, 0x31⟩ 0x0001,
      .floorSet ⟨0x30, 0x30, 0x41, 0x31⟩ 0x0001,
      .doorCtl ⟨0x30, 0x30, 0x41, 0x31⟩ 0x0003,
      .doorStop ⟨0x30, 0x30, 0x41, 0x31⟩,
      .doorOpen ⟨0x30, 0x30, 0x41, 0x31⟩,
      .doorClose ⟨0x30, 0x30, 0x41, 0x31⟩,
      .ping ⟨0x30, 0x30, 0x41, 0x31⟩ 0x0000,
      .pong ⟨0x30, 0x30, 0x41, 0x31⟩ 0x0000,
      .statusReq ⟨0x30, 0x30, 0x41, 0x31⟩ 0x0000,
      .statusRsp ⟨0x30, 0x30, 0x41, 0x31⟩ 0x0000,
      .controlReq ⟨0x30, 0x30, 0x41, 0x31⟩ 0x0000,
      .controlAck ⟨0x30, 0x30, 0x41, 0x31⟩ 0x0000,
      .floorCmd ⟨0x30, 0x30, 0x41, 0x31⟩ 0x0000,
      .doorCmd ⟨0x30, 0x30, 0x41, 0x31⟩ 0x0000,
      .unknownDn ⟨0x30, 0x30, 0x41, 0x31⟩ 0x0099 0x0000,
      .ack ⟨0x30, 0x30, 0x41, 0x31⟩,
      .nak ⟨0x30, 0x30, 0x41, 0x31⟩] : List Instr).all (fun i => !i.wf Config.allRows) = true := by decide
theorem test_instr_refuses_more_specific_values :
    ([.tgtFloor id1 0x0000, .doorCtl id1 0x0000, .doorCtl id1 0x0001, .doorCtl id1 0x0002] : List Instr).all
      (fun i => !i.wf Config.allRows) = true := by decide
theorem test_instr_refuses_known_data_numbers :
    ([.unknownDn id1 0x0001 0, .unknownDn id1 0x0011 0, .unknownDn id1 0x0020 0, .unknownDn id1 0x0031 0]
      : List Instr).all (fun i => !i.wf Config.allRows) = true := by decide
theorem test_instr_refuses_handshake_when_off :
    ([.ping id1 0, .pong id1 0, .statusReq id1 0, .statusRsp id1 0, .controlReq id1 0, .controlAck id1 0,
      .floorCmd id1 0, .doorCmd id1 0] : List Instr).all (fun i => !i.wf Config.default) = true := by decide
theorem test_instr_accepts_the_rest :
    ([.tgtFloor id1 0x0001, .doorCtl id1 0x0003, .ping id1 0, .unknownDn id1 0x0032 0, .nop, .start, .stop,
      .issue 0 0, .snapshot] : List Instr).all (fun i => i.wf Config.allRows) = true := by decide

/-! ## Decoding: words written out from the encodings of 30_encoding.md and 95_test_vectors.md sections 3, 10, 11 -/

theorem test_decode_cur_floor :
    decode Config.allRows [0x05, 0x30, 0x30, 0x30, 0x31, 0x57, 0x30, 0x30, 0x30, 0x31, 0x46, 0x46, 0x46, 0x46, 0x46, 0x33]
      = .ok (.curFloor id1 0xFFFF) := by decide
theorem test_decode_tgt_floor :
    decode Config.allRows [0x05, 0x30, 0x30, 0x30, 0x31, 0x57, 0x30, 0x30, 0x30, 0x32, 0x30, 0x30, 0x33, 0x46, 0x42, 0x35]
      = .ok (.tgtFloor id1 0x003F) := by decide
theorem test_decode_tgt_none :
    decode Config.allRows [0x05, 0x30, 0x30, 0x30, 0x31, 0x57, 0x30, 0x30, 0x30, 0x32, 0x30, 0x30, 0x30, 0x30, 0x39, 0x43]
      = .ok (.tgtNone id1) := by decide
theorem test_decode_load :
    decode Config.allRows [0x05, 0x30, 0x30, 0x30, 0x31, 0x57, 0x30, 0x30, 0x30, 0x33, 0x41, 0x42, 0x43, 0x44, 0x45, 0x37]
      = .ok (.load id1 0xABCD) := by decide
theorem test_decode_floor_set :
    decode Config.allRows [0x05, 0x30, 0x30, 0x30, 0x32, 0x57, 0x30, 0x30, 0x31, 0x30, 0x30, 0x30, 0x30, 0x33, 0x39, 0x46]
      = .ok (.floorSet id2 0x0003) := by decide
theorem test_decode_door_ctl :
    decode Config.allRows [0x05, 0x30, 0x30, 0x30, 0x32, 0x57, 0x30, 0x30, 0x31, 0x31, 0x30, 0x30, 0x30, 0x37, 0x41, 0x34]
      = .ok (.doorCtl id2 0x0007) := by decide
theorem test_decode_door_stop :
    decode Config.allRows [0x05, 0x30, 0x30, 0x30, 0x32, 0x57, 0x30, 0x30, 0x31, 0x31, 0x30, 0x30, 0x30, 0x30, 0x39, 0x44]
      = .ok (.doorStop id2) := by decide
theorem test_decode_door_open :
    decode Config.allRows [0x05, 0x30, 0x30, 0x30, 0x32, 0x57, 0x30, 0x30, 0x31, 0x31, 0x30, 0x30, 0x30, 0x31, 0x39, 0x45]
      = .ok (.doorOpen id2) := by decide
theorem test_decode_door_close :
    decode Config.allRows [0x05, 0x30, 0x30, 0x30, 0x32, 0x57, 0x30, 0x30, 0x31, 0x31, 0x30, 0x30, 0x30, 0x32, 0x39, 0x46]
      = .ok (.doorClose id2) := by decide
theorem test_decode_ping :
    decode Config.allRows [0x05, 0x30, 0x30, 0x30, 0x32, 0x57, 0x30, 0x30, 0x32, 0x30, 0x30, 0x30, 0x30, 0x30, 0x39, 0x44]
      = .ok (.ping id2 0x0000) := by decide
theorem test_decode_pong :
    decode Config.allRows [0x05, 0x30, 0x30, 0x30, 0x31, 0x57, 0x30, 0x30, 0x32, 0x31, 0x31, 0x32, 0x33, 0x34, 0x41, 0x37]
      = .ok (.pong id1 0x1234) := by decide
theorem test_decode_status_req :
    decode Config.allRows [0x05, 0x30, 0x30, 0x30, 0x31, 0x57, 0x30, 0x30, 0x32, 0x32, 0x31, 0x32, 0x33, 0x34, 0x41, 0x38]
      = .ok (.statusReq id1 0x1234) := by decide
theorem test_decode_status_rsp :
    decode Config.allRows [0x05, 0x30, 0x30, 0x30, 0x31, 0x57, 0x30, 0x30, 0x32, 0x33, 0x31, 0x32, 0x33, 0x34, 0x41, 0x39]
      = .ok (.statusRsp id1 0x1234) := by decide
theorem test_decode_control_req :
    decode Config.allRows [0x05, 0x30, 0x30, 0x30, 0x31, 0x57, 0x30, 0x30, 0x32, 0x34, 0x31, 0x32, 0x33, 0x34, 0x41, 0x41]
      = .ok (.controlReq id1 0x1234) := by decide
theorem test_decode_control_ack :
    decode Config.allRows [0x05, 0x30, 0x30, 0x30, 0x31, 0x57, 0x30, 0x30, 0x32, 0x35, 0x31, 0x32, 0x33, 0x34, 0x41, 0x42]
      = .ok (.controlAck id1 0x1234) := by decide
theorem test_decode_floor_cmd :
    decode Config.allRows [0x05, 0x30, 0x30, 0x30, 0x31, 0x57, 0x30, 0x30, 0x33, 0x30, 0x30, 0x30, 0x30, 0x33, 0x41, 0x30]
      = .ok (.floorCmd id1 0x0003) := by decide
theorem test_decode_door_cmd :
    decode Config.allRows [0x05, 0x30, 0x30, 0x30, 0x31, 0x57, 0x30, 0x30, 0x33, 0x31, 0x30, 0x30, 0x30, 0x31, 0x39, 0x46]
      = .ok (.doorCmd id1 0x0001) := by decide
theorem test_decode_unknown_dn :
    decode Config.allRows [0x05, 0x30, 0x30, 0x30, 0x30, 0x57, 0x46, 0x46, 0x46, 0x46, 0x39, 0x36, 0x30, 0x30, 0x30, 0x30]
      = .ok (.unknownDn ⟨0x30, 0x30, 0x30, 0x30⟩ 0xFFFF 0x9600) := by decide
theorem test_decode_handshake_off :
    decode Config.default [0x05, 0x30, 0x30, 0x30, 0x32, 0x57, 0x30, 0x30, 0x32, 0x30, 0x30, 0x30, 0x30, 0x30, 0x39, 0x44]
      = .ok (.unknownDn id2 0x0020 0x0000) := by decide
theorem test_decode_ack :
    decode Config.allRows [0x06, 0x30, 0x30, 0x30, 0x32]
      = .ok (.ack id2) := by decide
theorem test_decode_nak :
    decode Config.allRows [0x15, 0x30, 0x30, 0x30, 0x32]
      = .ok (.nak id2) := by decide
theorem test_decode_hop :
    decodeHop 0x000000000 = .ok .nop ∧ decodeHop 0x100000000 = .ok .start ∧ decodeHop 0x200000000 = .ok .stop
      ∧ decodeHop 0x30011FFFF = .ok (.issue 0x0011 0xFFFF) ∧ decodeHop 0x400000000 = .ok .snapshot
      ∧ decodeHop 0x500000000 = .error (.reservedOp 5) := by decide
theorem test_decode_hop_ignores_operands :
    decodeHop 0x1FFFFFFFF = .ok .start ∧ decodeHop 0x0FFFFFFFF = .ok .nop := by decide
theorem test_decode_lower_case :
    decode Config.allRows [0x05, 0x30, 0x30, 0x30, 0x31, 0x57, 0x30, 0x30, 0x30, 0x33, 0x61, 0x62, 0x63, 0x64, 0x36, 0x38]
      = .ok (.load id1 0xABCD) := by decide
theorem test_decode_refuses_malformed_commands :
    ([[0x05, 0x30, 0x30, 0x30, 0x31, 0x52, 0x30, 0x30, 0x31, 0x30, 0x30, 0x30, 0x30, 0x31, 0x39, 0x43],
      [0x05, 0x30, 0x30, 0x41, 0x31, 0x57, 0x30, 0x30, 0x31, 0x30, 0x30, 0x30, 0x30, 0x31, 0x39, 0x43],
      [0x05, 0x30, 0x30, 0x30, 0x31, 0x57, 0x47, 0x30, 0x31, 0x30, 0x30, 0x30, 0x30, 0x31, 0x39, 0x43],
      [0x05, 0x30, 0x30, 0x30, 0x31, 0x57, 0x30, 0x30, 0x31, 0x30, 0x30, 0x30, 0x30, 0x31, 0x47, 0x43],
      [0x05, 0x30, 0x30, 0x30, 0x31, 0x57, 0x30, 0x30, 0x30, 0x32, 0x20, 0x30, 0x30, 0x33, 0x39, 0x43],
      [0x05, 0x30, 0x30, 0x30, 0x31, 0x57, 0x30, 0x30, 0x31, 0x30, 0x30, 0x30, 0x30, 0x31, 0x39]] : List (List Byte)).all
        (fun B => decodeFrame B == .error .malformedCommand) = true := by decide
theorem test_decode_refuses_wrong_checksum :
    decodeFrame [0x05, 0x30, 0x30, 0x30, 0x31, 0x57, 0x30, 0x30, 0x30, 0x32, 0x66, 0x66, 0x66, 0x66, 0x46, 0x34]
      = .error (.checksumMismatch 0xF4 0x75) := by decide
theorem test_decode_refuses_malformed_acks_and_frames :
    decodeFrame [0x06, 0x30, 0x30, 0x41, 0x32] = .error .malformedAck
      ∧ decodeFrame [0x06, 0x30, 0x30, 0x30] = .error .malformedAck ∧ decodeFrame [] = .error .malformedFrame
      ∧ decodeFrame [0xAA] = .error .malformedFrame := by decide
theorem test_encode_words :
    encode Config.allRows (.doorOpen id2) = .frame [0x05, 0x30, 0x30, 0x30, 0x32, 0x57, 0x30, 0x30, 0x31, 0x31, 0x30, 0x30, 0x30, 0x31, 0x39, 0x45]
      ∧ encode Config.allRows (.nak id2) = .frame [0x15, 0x30, 0x30, 0x30, 0x32]
      ∧ encode Config.allRows (.issue 0x0010 0x0003) = .hop 0x300100003 := by decide
theorem test_checksum_vectors :
    ckCompute [0x80, 0x80] = 0x01 ∧ ckCompute [0xFF, 0x01] = 0x01 ∧ ckCompute [0xFF, 0xFF] = 0xFF
      ∧ ckCompute (List.replicate 13 0xFF) = 0xFF ∧ ckVerify [0x80, 0x80] [0x30, 0x31] = true
      ∧ ckVerify [0x80, 0x80] [0x30, 0x47] = false ∧ ckVerify [0x80, 0x80] [0x31] = false := by decide

/-! ## The host interface's words (log 4) -/

theorem test_table_words :
    decodeTableWord 128 0x05303030315730303033303146344238 = some (.load id1 0x01F4)
      ∧ decodeTableWord 40 0x1530303032 = some (.nak id2) ∧ decodeTableWord 36 0x100000000 = some .start
      ∧ decodeTableWord 40 0x400000000 = some .snapshot ∧ decodeTableWord 40 0x500000000 = none
      ∧ decodeTableWord 128 0 = none := by decide
theorem test_fetch_word_runs_a_frame :
    (nextOf (step (State.reset.withFetchWord 128 0x05303030315730303033303146344238))).map (·.loadWeight) = some 0x01F4 := by decide
theorem test_fetch_word_runs_a_host_word :
    (nextOf (step (State.reset.withFetchWord 36 0x100000000))).map (fun s => (s.linkEnable, s.events))
      = some (true, [.started]) := by decide
theorem test_fetch_word_runs_a_handshake_frame :
    (nextOf (step (State.reset.withFetchWord 128 0x05303030315730303230303030303943))).map (·.sessState) = some .handshaking := by decide
theorem test_fetch_word_runs_a_nak :
    (nextOf (step (State.reset.withFetchWord 40 0x1530303032))).map (·.events) = some [.nak id2] := by decide

/-! ## One step of each instruction (95_test_vectors.md sections 7, 8, 10, 11) -/

theorem test_cur_floor :
    (run (.curFloor id1 0x0005) (up ctl)).map (fun s => (s.currentFloor, s.txq, s.events))
      = some (5, [[0x06, 0x30, 0x30, 0x30, 0x31]],
        [.ackSent, .report 1 5, .changed .currentFloor 1 5]) := by decide
theorem test_cur_floor_not_consumed :
    (run (.curFloor id2 0x0005) (up src)).map (fun s => (s.currentFloor, s.events))
      = some (1, [.ackSent, .report 1 5, .unhandled 1 5]) := by decide
theorem test_tgt_floor :
    (run (.tgtFloor id1 0x0003) (up ctl)).map (fun s => (s.targetFloor, s.moving, s.currentFloor, s.events))
      = some (some 3, true, 1, [.ackSent, .report 2 3, .changed .targetFloor 0 3]) := by decide
theorem test_tgt_floor_equal_to_current :
    (run (.tgtFloor id1 0x0001) { up ctl with targetFloor := some 4, moving := true }).map
      (fun s => (s.targetFloor, s.moving, s.events.getLast?)) = some (none, false, some (.arrival 1)) := by decide
theorem test_tgt_none :
    (run (.tgtNone id1) { up ctl with targetFloor := some 3, moving := true }).map
      (fun s => (s.currentFloor, s.targetFloor, s.moving, s.events))
      = some (3, none, false, [.ackSent, .report 2 0, .arrival 3]) := by decide
theorem test_tgt_none_without_target :
    (run (.tgtNone id1) (up ctl)).map (fun s => (s.currentFloor, s.events)) = some (1, [.ackSent, .report 2 0]) := by decide
theorem test_load :
    (run (.load id1 0x01F4) (up ctl)).map (fun s => (s.loadWeight, s.dedup))
      = some (0x01F4, [⟨0x0003, 0x01F4, 100⟩]) := by decide
theorem test_load_for_another_station :
    (run (.load id2 0x01F4) (up ctl)).map (fun s => (s.loadWeight, s.txq, s.dedup, s.events))
      = some (0, [], [], [.ignored id2 3 0x01F4]) := by decide
theorem test_floor_set :
    (run (.floorSet id2 0x0003) (up src)).map (fun s => (s.currentFloor, s.targetFloor, s.events))
      = some (1, none, [.ackSent, .report 0x10 3, .floorCmd 3]) := by decide
theorem test_door_ctl_reserved :
    (run (.doorCtl id2 0x0007) (up src)).map (fun s => (s.doorStatus, s.events))
      = some (3, [.ackSent, .report 0x11 7, .reservedValue 0x11 7]) := by decide
theorem test_door_stop :
    (run (.doorStop id2) { up src with doorStatus := 1 }).map (fun s => (s.doorStatus, s.events))
      = some (0, [.ackSent, .report 0x11 0, .changed .doorStatus 1 0, .doorCmd 0]) := by decide
theorem test_door_open :
    (run (.doorOpen id2) (up src)).map (fun s => (s.doorStatus, s.events))
      = some (1, [.ackSent, .report 0x11 1, .changed .doorStatus 3 1, .doorCmd 1]) := by decide
theorem test_door_close :
    (run (.doorClose id2) { up src with doorStatus := 2 }).map (fun s => (s.doorStatus, s.events))
      = some (2, [.ackSent, .report 0x11 2, .doorCmd 2]) := by decide
theorem test_ping :
    (run (.ping id1 0) (up ctl)).map (fun s => (s.sessState, s.txq))
      = some (.handshaking, [[0x06, 0x30, 0x30, 0x30, 0x31],
        [0x05, 0x30, 0x30, 0x30, 0x32, 0x57, 0x30, 0x30, 0x32, 0x31, 0x30, 0x30, 0x30, 0x30, 0x39, 0x45]]) := by decide
theorem test_pong_completes_its_request :
    (run (.pong id1 0) { up ctl with pendValid := true, pendDn := 0x0020, retryCnt := 2 }).map
      (fun s => (s.pendValid, s.retryCnt, s.sessState, s.events))
      = some (false, 0, .handshaking, [.ackSent, .report 0x21 0, .cmdOk 0x20 0 2, .sessState .idle .handshaking]) := by decide
theorem test_pong_leaves_another_request :
    (run (.pong id1 0) { up ctl with pendValid := true, pendDn := 0x0022, retryCnt := 2 }).map
      (fun s => (s.pendValid, s.retryCnt)) = some (true, 2) := by decide
theorem test_status_req :
    (run (.statusReq id1 0) { up ctl with sessState := .handshaking }).map (·.sessState) = some .linked := by decide
theorem test_status_req_out_of_turn :
    (run (.statusReq id1 0) (up ctl)).map (fun s => (s.sessState, s.events))
      = some (.idle, [.ackSent, .report 0x22 0, .responseSent 0x23]) := by decide
theorem test_status_rsp :
    (run (.statusRsp id1 0) { up ctl with sessState := .handshaking }).map (·.sessState) = some .linked := by decide
theorem test_control_req :
    (run (.controlReq id1 0) { up ctl with sessState := .linked }).map (·.sessState) = some .controlling := by decide
theorem test_control_ack :
    (run (.controlAck id1 0) { up ctl with sessState := .linked }).map (·.sessState) = some .controlling := by decide
theorem test_floor_cmd :
    (run (.floorCmd id2 0x0003) (up src)).map (·.events) = some [.ackSent, .report 0x30 3, .floorCmd 3] := by decide
theorem test_door_cmd :
    (run (.doorCmd id2 0x0002) (up src)).map (fun s => (s.doorStatus, s.events))
      = some (2, [.ackSent, .report 0x31 2, .changed .doorStatus 3 2, .doorCmd 2]) := by decide
theorem test_door_cmd_reserved :
    (run (.doorCmd id2 0x0003) (up src)).map (fun s => (s.doorStatus, s.events))
      = some (3, [.ackSent, .report 0x31 3, .reservedValue 0x31 3]) := by decide
theorem test_unknown_dn :
    (run (.unknownDn id1 0x0099 0x0001) (up ctl)).map (·.events)
      = some [.ackSent, .report 0x99 1, .unknownDn 0x99 1] := by decide
theorem test_ack_of_the_peer :
    (run (.ack id2) { up ctl with pendValid := true, pendDn := 0x0010, pendValue := 3 }).map
      (fun s => (s.pendValid, s.events)) = some (false, [.cmdOk 0x10 3 0]) := by decide
theorem test_ack_of_another_station :
    (run (.ack id1) { up ctl with pendValid := true }).map (fun s => (s.pendValid, s.events))
      = some (true, [.strayAck id1]) := by decide
theorem test_nak :
    (run (.nak id2) { up ctl with pendValid := true }).map (fun s => (s.pendValid, s.events))
      = some (true, [.nak id2]) := by decide
theorem test_nop :
    (run .nop (up ctl)).map (fun s => (s.hostReply, s.events)) = some (some ⟨0, none⟩, []) := by decide
theorem test_start :
    (run .start State.reset).map (fun s => (s.linkEnable, s.events)) = some (true, [.started]) := by decide
theorem test_start_twice :
    (run .start (up ctl)).map (fun s => (s.hostReply, s.events))
      = some (some ⟨15, none⟩, [.error .badRequest]) := by decide
theorem test_stop :
    (run .stop { up ctl with currentFloor := 7 }).map
      (fun s => (s.currentFloor, s.linkState, s.now, s.devOut, s.events))
      = some (1, .disconnected, 100, [.close], [.stopped]) := by decide
theorem test_issue :
    (run (.issue 0x0010 0x0002) (up ctl)).map (fun s => (s.txq, s.pendValid, s.ackT0, s.hostReply))
      = some ([[0x05, 0x30, 0x30, 0x30, 0x32, 0x57, 0x30, 0x30, 0x31, 0x30, 0x30, 0x30, 0x30, 0x32, 0x39, 0x45]],
        true, 100, some ⟨0, none⟩) := by decide
theorem test_issue_refusals :
    (run (.issue 0x0001 0) (up ctl)).map (·.hostReply) = some (some ⟨11, none⟩)
      ∧ (run (.issue 0x0010 0) State.reset).map (·.hostReply) = some (some ⟨8, none⟩)
      ∧ (run (.issue 0x0010 0) { up ctl with pendValid := true }).map (·.hostReply) = some (some ⟨10, none⟩) := by decide
theorem test_snapshot :
    (run .snapshot (up ctl)).map (·.hostReply)
      = some (some ⟨0, some ⟨1, none, 0, false, 3, .connected, 0, .idle, false, 0⟩⟩) := by decide

/-! ## The agents' other steps (95_test_vectors.md sections 4, 5, 9) -/

theorem test_character_bits :
    charBits .even 0x15 = [false, true, false, true, false, true, false, false, false, true, true]
      ∧ receiveChar .even [false, true, false, true, false, false, false, false, false, true, true]
        = some (0x05, true, false) := by decide
theorem test_skip :
    (act .sSkip { up ctl with rxBuf := [0xAA, 0xBB] }).map (fun s => (s.rxBuf, s.scanPc, s.events))
      = some ([0xBB], 1, [.error (.malformedFrame 0xAA 0)]) := by decide
theorem test_hold_below_frame_length :
    scanAction { up ctl with rxBuf := [0x05, 0x30] } = none
      ∧ scanAction { up ctl with rxBuf := [0x06, 0x30, 0x30, 0x30] } = none := by decide
theorem test_emit :
    (act .sEmit { up ctl with rxBuf := [0x06, 0x30, 0x30, 0x30, 0x32, 0x05], scanPc := 7 }).map
      (fun s => (s.fq, s.rxBuf, s.scanPc)) = some ([.ackFrame .ack id2], [0x05], 12) := by decide
theorem test_reject :
    (act .sReject { up ctl with rxBuf := [0x06, 0x30, 0x30, 0x41, 0x32], scanPc := 7 }).map
      (fun s => (s.fq, s.rxBuf, s.scanPc, s.events))
      = some ([], [0x30, 0x30, 0x41, 0x32], 8, [.error (.malformedAck 7)]) := by decide
theorem test_char_parity_error_degrades :
    (act (.rxChar 0x05 true false) (up ctl)).map (fun s => (s.failCnt, s.linkState, s.rxBuf))
      = some (1, .degraded, []) := by decide
theorem test_char_fail_limit_takes_the_link_down :
    (act (.rxChar 0x05 false true) { up ctl with failCnt := 2, linkState := .degraded }).map
      (fun s => (s.linkState, s.failCnt, s.backoffDelay, s.devOut)) = some (.disconnected, 0, 2000, [.close]) := by decide
theorem test_bits_with_wrong_stop_bit :
    (act (.rxBits [false, true, false, true, false, false, false, false, false, false, false]) (up ctl)).map
      (·.events) = some [.error (.rxCharError 0x05 false true)] := by decide
theorem test_open_attempt :
    (act .lOpen { State.reset with linkEnable := true }).map (fun s => (s.linkState, s.devOut, s.events))
      = some (.connecting, [.openReq], [.openAttempt 1]) := by decide
theorem test_open_fail :
    (act .devOpenFail { State.reset with linkState := .connecting, linkEnable := true, now := 50 }).map
      (fun s => (s.linkState, s.attemptCnt, s.backoffDelay, s.backoffT0)) = some (.disconnected, 1, 2000, 50) := by decide
theorem test_reset_input :
    (act .rst { up ctl with currentFloor := 9 }).map (fun s => (s.currentFloor, s.linkState, s.now))
      = some (1, .disconnected, 0) := by decide
theorem test_reference_schedule :
    referenceAction { up ctl with rxBuf := [0xAA], fq := [.ackFrame .ack id2] } = .sSkip
      ∧ referenceAction { up ctl with fq := [.ackFrame .ack id2] } = .xFrame
      ∧ referenceAction { up ctl with txq := [[0x06]] } = .txByte ∧ referenceAction (up ctl) = .tick := by decide
theorem test_reference_schedule_transmitter_keeps_its_turn :
    (nextOf (step { up ctl with fq := [.ackFrame .ack id2], txq := [[0x06], [0x06], [0x06]] })).map
        (fun s => (s.txq.length, frameReady s, nextAction s)) = some (2, true, .txByte)
      ∧ referenceAction { up ctl with fq := [.ackFrame .ack id2], phase := .transmit } = .xFrame := by decide
theorem test_reference_schedule_begins_with_the_link_after_the_environment :
    (act .tick { up ctl with phase := .session, now := 60000, pendValid := true }).map
        (fun s => (lIdleEnabled s, xTimeoutEnabled s, nextAction s)) = some (true, true, .lIdle) := by decide
theorem test_two_stations_line :
    (match pairStep .deliverToB ⟨{ up ctl with lineOut := [0x06] }, up src, 0, 0⟩ with
      | .next p => some (p.takenA, p.b.rxBuf)
      | .fault _ => none
      | .refused _ => none) = some (1, [0x06]) := by decide
/-! ## Witnesses: states and operands that meet the hypotheses of the statements -/

theorem test_witness_DecodeEncodeEveryInstruction :
    Config.allRows.ok = true ∧ (Instr.doorCtl id1 0x0003).wf Config.allRows = true
      ∧ (Instr.tgtFloor id1 0xFFFF).wf Config.allRows = true
      ∧ (Instr.unknownDn id1 0x0032 0).wf Config.allRows = true := by decide
theorem test_witness_FrameRoundTripAndConverse :
    id1.isDigits = true
      ∧ decodeFrame [0x05, 0x30, 0x30, 0x30, 0x31, 0x57, 0x30, 0x30, 0x30, 0x33, 0x61, 0x62, 0x63, 0x64, 0x36, 0x38]
        = .ok (.cmd id1 0x0003 0xABCD) := by decide
theorem test_witness_DecodedInstructionIsWellFormed :
    decode Config.default [0x06, 0x30, 0x30, 0x30, 0x32] = .ok (.ack id2) := by decide
theorem test_witness_ChecksumVerifyIsExact : ckVerify [0x30, 0x6C] [0x39, 0x63] = true := by decide
theorem test_witness_ChecksumRangeAndOrder :
    id1.bytes.length = 4 ∧ (∀ b ∈ id1.bytes, isDigit b = true) ∧ (List.replicate 8 (0x66 : Byte)).length = 8
      ∧ (∀ b ∈ List.replicate 8 (0x66 : Byte), isHex b = true)
      ∧ (List.replicate 13 (0xFF : Byte)).length = 13 ∧ [(0x01 : Byte), 0x02].Perm [0x02, 0x01] := by decide
theorem test_witness_DecodeCommandChecks :
    (encodeCmd id1 0x0001 0x0001).head? = some ENQ ∧ (encodeCmd id1 0x0001 0x0001).length = 16
      ∧ (∀ b ∈ ((encodeCmd id1 0x0001 0x0001).drop 1).take 4, isDigit b = true)
      ∧ (encodeCmd id1 0x0001 0x0001)[5]? = some CMD_W ∧ (∀ b ∈ (encodeCmd id1 0x0001 0x0001).drop 6, isHex b = true)
      ∧ [ENQ].head? = some ENQ ∧ [ENQ].length ≠ 16 := by decide
theorem test_witness_DecodeAckChecks :
    (encodeAck .nak id1).head? = some (AckKind.byte .nak) ∧ (encodeAck .nak id1).length = 5
      ∧ (∀ b ∈ (encodeAck .nak id1).drop 1, isDigit b = true) ∧ [ACK].head? = some (AckKind.byte .ack)
      ∧ [ACK].length ≠ 5 ∧ ([] : List Byte).head? ≠ some ENQ ∧ [(0xAA : Byte)].head? ≠ some NAK := by decide
theorem test_witness_StepRunsDecodedInstruction :
    ({ up ctl with sched := [.xFrame], fq := [.ackFrame .ack id2] } : State).sched = .xFrame :: []
      ∧ ({ up ctl with sched := [.xFrame], fq := [.ackFrame .ack id2] } : State).fq = .ackFrame .ack id2 :: []
      ∧ decodeHop 0x300100003 = .ok (.issue 0x0010 0x0003) := by decide

/-- One frame's bytes in the buffer and the first of another, the scanner and the session next. -/
def received : State :=
  { up ctl with rxBuf := [0x06, 0x30, 0x30, 0x30, 0x32, 0x06], sched := [.sEmit, .xFrame] }

theorem test_witness_FrameBytesRunAsDecoded :
    linkUp received = true ∧ received.rxBuf = (0x06 :: [0x30, 0x30, 0x30, 0x32]) ++ [0x06]
      ∧ startLen received.cfg 0x06 = some 5 ∧ ((0x06 : Byte) :: [0x30, 0x30, 0x30, 0x32]).length = 5
      ∧ decodeFrame (0x06 :: [0x30, 0x30, 0x30, 0x32]) = .ok (.ackFrame .ack id2)
      ∧ decode received.cfg (0x06 :: [0x30, 0x30, 0x30, 0x32]) = .ok (.ack id2) ∧ received.fq = []
      ∧ 1 ≤ received.cfg.fqDepth ∧ received.sched = .sEmit :: .xFrame :: [] := by decide
theorem test_witness_FrameWaitsUntilReady :
    linkUp State.reset = false
      ∧ (up ctl).cfg.txqDepth < ({ up ctl with txq := [[], [], []] } : State).txq.length + 2 := by decide

/-- Room in `txq` for two frames and no more. -/
def tight (c : Config) : State := { up c with txq := [[0x06], [0x06]] }

theorem test_witness_FrameForAnotherStationIsIgnored :
    linkUp (tight ctl) = true ∧ (tight ctl).txq.length + 2 ≤ (tight ctl).cfg.txqDepth ∧ id2 ≠ (tight ctl).cfg.ownId := by
  decide
theorem test_witness_DuplicateIsAckedAndNotExecuted :
    linkUp (tight ctl) = true ∧ (tight ctl).txq.length + 2 ≤ (tight ctl).cfg.txqDepth
      ∧ isDuplicate 0x0001 5 { tight ctl with dedup := [⟨0x0001, 5, 0⟩], now := 500 } = true := by decide

/-- A frame that is executed, at the edge of the room in `txq`. -/
theorem fresh_ctl (dn v : W16) : Fresh (tight ctl) id1 dn v := ⟨rfl, by decide, rfl, rfl⟩
theorem fresh_src (dn v : W16) : Fresh (tight src) id2 dn v := ⟨rfl, by decide, rfl, rfl⟩

theorem test_witness_UnconsumedFrameIsOnlyReported :
    (tight src).cfg.ok = true ∧ Fresh (tight src) id2 0x0003 1 ∧ consumes (tight src).cfg 0x0003 = false
      ∧ (0x0003 : W16) ∈ baseDns ∧ Fresh (tight ctl) id1 0x0031 1 ∧ consumes (tight ctl).cfg 0x0031 = false
      ∧ (tight ctl).cfg.handshakeEn = true ∧ (0x0031 : W16) = (tight ctl).cfg.dnDoorCmd :=
  ⟨by decide, fresh_src _ _, by decide, by decide, fresh_ctl _ _, by decide, rfl, rfl⟩
theorem test_witness_CapabilityTable :
    ctl.ok = true ∧ ctl.handshakeEn = true ∧ ctl.dnPing ∈ [ctl.dnPing, ctl.dnStatusReq, ctl.dnControlReq]
      ∧ ctl.dnControlAck ∈ [ctl.dnPong, ctl.dnStatusRsp, ctl.dnControlAck]
      ∧ ctl.dnDoorCmd ∈ [ctl.dnFloorCmd, ctl.dnDoorCmd] ∧ ctl.knownDn 0x0032 = false := by decide
theorem test_witness_CurrentFloorReport : Fresh (tight ctl) id1 0x0001 1 ∧ (tight ctl).cfg.role = .controller :=
  ⟨fresh_ctl _ _, rfl⟩
theorem test_witness_TargetFloorReport :
    (0x0002 : W16) ≠ 0x0000 ∧ ¬ ((tight ctl).cfg.arriveOnEqual = true ∧ (0x0002 : W16) = (tight ctl).currentFloor)
      ∧ Fresh (tight ctl) id1 0x0002 0x0002 ∧ (tight ctl).cfg.role = .controller :=
  ⟨by decide, by decide, fresh_ctl _ _, rfl⟩
theorem test_witness_TargetEqualToCurrentFloorArrives :
    (tight ctl).currentFloor ≠ 0x0000 ∧ (tight ctl).cfg.arriveOnEqual = true
      ∧ Fresh (tight ctl) id1 0x0002 (tight ctl).currentFloor ∧ (tight ctl).cfg.role = .controller :=
  ⟨by decide, rfl, fresh_ctl _ _, rfl⟩
theorem test_witness_NoTargetReportArrives :
    Fresh { tight ctl with targetFloor := some 0xFFFF } id1 0x0002 0x0000
      ∧ ({ tight ctl with targetFloor := some 0xFFFF } : State).targetFloor = some 0xFFFF
      ∧ Fresh (tight ctl) id1 0x0002 0x0000 ∧ (tight ctl).targetFloor = none ∧ (tight ctl).cfg.role = .controller :=
  ⟨⟨rfl, by decide, rfl, rfl⟩, rfl, fresh_ctl _ _, rfl, rfl⟩
theorem test_witness_LoadWeightReport : Fresh (tight ctl) id1 0x0003 0xFFFF ∧ (tight ctl).cfg.role = .controller :=
  ⟨fresh_ctl _ _, rfl⟩
theorem test_witness_FloorCommandsGoToTheHost :
    Fresh (tight src) id2 0x0010 3 ∧ (tight src).cfg.role = .dataSource
      ∧ Fresh (tight src) id2 (tight src).cfg.dnFloorCmd 3 ∧ (tight src).cfg.handshakeEn = true :=
  ⟨fresh_src _ _, rfl, fresh_src _ _, rfl⟩
theorem test_witness_DoorCommandsSetTheDoor :
    (tight src).cfg.role = .dataSource ∧ Fresh (tight src) id2 0x0011 0 ∧ Fresh (tight src) id2 0x0011 1
      ∧ Fresh (tight src) id2 0x0011 2 := ⟨rfl, fresh_src _ _, fresh_src _ _, fresh_src _ _⟩
theorem test_witness_ReservedDoorValueAndDoorCmd :
    (0x0002 : W16) < 0x0003 ∧ Fresh (tight src) id2 0x0011 0x0003 ∧ Fresh (tight src) id2 (tight src).cfg.dnDoorCmd 2
      ∧ (tight src).cfg.role = .dataSource ∧ (tight src).cfg.handshakeEn = true :=
  ⟨by decide, fresh_src _ _, fresh_src _ _, rfl, rfl⟩
theorem test_witness_UnknownDataNumberWritesNothing : Fresh (tight ctl) id1 0x0099 1 := fresh_ctl _ _
theorem test_witness_HandshakeRequestsAreAnswered :
    Fresh (tight ctl) id1 (tight ctl).cfg.dnPing 0 ∧ Fresh (tight ctl) id1 (tight ctl).cfg.dnStatusReq 0
      ∧ Fresh (tight ctl) id1 (tight ctl).cfg.dnControlReq 0 := ⟨fresh_ctl _ _, fresh_ctl _ _, fresh_ctl _ _⟩
theorem test_witness_HandshakeResponsesComplete :
    (tight ctl).cfg.ok = true ∧ (tight ctl).cfg.handshakeEn = true ∧ Fresh (tight ctl) id1 (tight ctl).cfg.dnPong 0
      ∧ Fresh (tight ctl) id1 (tight ctl).cfg.dnStatusRsp 0 ∧ Fresh (tight ctl) id1 (tight ctl).cfg.dnControlAck 0 :=
  ⟨by decide, rfl, fresh_ctl _ _, fresh_ctl _ _, fresh_ctl _ _⟩
theorem test_witness_AckCompletesAndNakChangesNothing :
    linkUp (tight ctl) = true ∧ (tight ctl).txq.length + 2 ≤ (tight ctl).cfg.txqDepth := by decide
theorem test_witness_StartBeginsTheSession : (up ctl).linkEnable = true ∧ State.reset.linkEnable = false := by decide
theorem test_witness_IssueChecksThenBegins :
    emits ctl 0x0001 = false ∧ emits ctl 0x0010 = true ∧ linkUp State.reset = false ∧ linkUp (up ctl) = true
      ∧ ({ up ctl with pendValid := true } : State).pendValid = true
      ∧ (up ctl).cfg.txqDepth ≤ ({ up ctl with txq := [[], [], [], []] } : State).txq.length
      ∧ (up ctl).pendValid = false
      ∧ ({ up ctl with txq := [[], [], []] } : State).txq.length < (up ctl).cfg.txqDepth := by decide
theorem test_witness_ReservedHostWordIsRefused : 5 ≤ (0x500000000 : BitVec 36).toNat / 2 ^ 32 := by decide

/-- The table with one entry, the window ending now or a tick ago. -/
def remembered (age : W32) : State := { up ctl with dedup := [⟨0x0001, 5, 0⟩], now := age }

theorem test_witness_DedupFourArms :
    dedupRead (up ctl).dedup 0x0001 = none ∧ dedupRead (remembered 500).dedup 0x0001 = some (5, 0)
      ∧ (remembered 501).cfg.dedupWindow < ((remembered 501).now - 0).toNat
      ∧ ((remembered 500).now - 0).toNat ≤ (remembered 500).cfg.dedupWindow ∧ (5 : W16) ≠ 6 := by decide
theorem test_witness_RepeatIsDuplicateUntilTheWindowLapses :
    (up ctl).cfg.ok = true ∧ isDuplicate 0x0001 5 (up ctl) = false ∧ 500 < 2 ^ 32 ∧ 501 < 2 ^ 32 := by decide
theorem test_witness_OpenAttemptAfterBackoff :
    State.reset.linkState = .disconnected ∧ ({ State.reset with linkEnable := true } : State).linkEnable = true
      ∧ State.reset.backoffDelay ≤ State.reset.now - State.reset.backoffT0
      ∧ ({ State.reset with sched := [.lOpen] } : State).sched = .lOpen :: [] := by decide
theorem test_witness_DeviceOpens :
    ({ State.reset with sched := [.devOpenOk] } : State).sched = .devOpenOk :: [] := by decide

/-- Connecting, with a reconnect cap and `n` attempts failed. -/
def connecting (n : W16) : State :=
  { State.resetWith { ctl with maxReconnect := some 3 } with
    linkState := .connecting, linkEnable := true, attemptCnt := n, sched := [.devOpenFail] }

theorem test_witness_DeviceOpenFails :
    (connecting 1).linkState = .connecting
      ∧ (2 : W16).toNat = min ((connecting 1).attemptCnt.toNat + 1) (2 ^ 16 - 1) ∧ (2 : W16).toNat < 3
      ∧ (3 : W16).toNat = min ((connecting 2).attemptCnt.toNat + 1) (2 ^ 16 - 1)
      ∧ (connecting 2).cfg.maxReconnect = some 3 ∧ 3 ≤ (3 : W16).toNat
      ∧ (0xFFFF : W16).toNat = min ((connecting 0xFFFF).attemptCnt.toNat + 1) (2 ^ 16 - 1)
      ∧ State.reset.linkState ≠ .connecting := by decide
theorem test_witness_BackoffDoublesUpToItsCap :
    ctl.ok = true ∧ (delayAfter ctl 3).toNat = 16000 ∧ (delayAfter ctl 4).toNat = 30000 := by decide
theorem test_witness_ResetMeetsTheInvariant : Config.default.ok = true ∧ Config.allRows.ok = true := by decide
theorem test_witness_DeviceErrorTakesTheLinkDown :
    ({ up ctl with sched := [.devError] } : State).sched = .devError :: [] ∧ linkUp (up ctl) = true
      ∧ (connecting 0).linkState = .connecting ∧ State.reset.linkState = .disconnected := by decide
/-- The smallest receive buffer. -/
def small : State := up { ctl with rxbufSize := 32 }

theorem test_witness_GoodCharacterIsAppended :
    linkUp State.reset = false ∧ linkUp (up ctl) = true
      ∧ ({ small with rxBuf := List.replicate 31 0x30 } : State).rxBuf.length < small.cfg.rxbufSize ∧ linkUp small = true := by decide
theorem test_witness_SoftFailuresCountToTheLimit :
    linkUp small = true ∧ linkUp (up ctl) = true ∧ (up ctl).cfg.parity = .even
      ∧ small.cfg.rxbufSize ≤ ({ small with rxBuf := List.replicate 32 0x30 } : State).rxBuf.length
      ∧ ({ up ctl with failCnt := 1 } : State).failCnt.toNat + 1 < (up ctl).cfg.failLimit
      ∧ (up ctl).cfg.failLimit ≤ ({ up ctl with failCnt := 2 } : State).failCnt.toNat + 1 := by decide
theorem test_witness_IdleLineRecyclesTheLink :
    (up ctl).cfg.idleTimeout = some 60000 ∧ linkUp (up ctl) = true
      ∧ 60000 < (({ up ctl with now := 60001 } : State).now - (up ctl).lastRxTime).toNat
      ∧ (({ up ctl with now := 60000 } : State).now - (up ctl).lastRxTime).toNat ≤ 60000
      ∧ linkUp State.reset = false := by decide
theorem test_witness_ScannerTakesExactlyItsEnabledStep :
    linkUp received = true ∧ received.rxBuf = 0x06 :: [0x30, 0x30, 0x30, 0x32, 0x06]
      ∧ ({ up ctl with rxBuf := [0x06, 0x30, 0x30, 0x30] } : State).rxBuf.length < 5 ∧ 5 ≤ received.rxBuf.length
      ∧ decodeFrame (received.rxBuf.take 5) = .ok (.ackFrame .ack id2) ∧ received.fq.length < received.cfg.fqDepth
      ∧ received.cfg.fqDepth ≤ ({ received with fq := List.replicate 8 (.ackFrame .ack id2) } : State).fq.length
      ∧ decodeFrame [0x06, 0x30, 0x30, 0x41, 0x32] = .error .malformedAck
      ∧ decodeFrame (List.replicate 16 ENQ) = .error .malformedCommand
      ∧ decodeFrame ((encodeCmd id1 0x0010 0x0001).take 15 ++ [0x44]) = .error (.checksumMismatch 0x9D 0x9C)
      ∧ (0xAA : Byte) ≠ ENQ ∧ (0xAA : Byte) ≠ ACK ∧ (0xAA : Byte) ≠ NAK ∧ received.cfg.scanNak = true := by decide
theorem test_witness_ScannerComesToRest : scanAction received ≠ none := by decide

/-- Sending the last byte of the first of two frames, an exchange pending. -/
def busy : State :=
  { up ctl with
    pendValid := true, pendDn := 0x0010, pendValue := 3, retryCnt := 8, targetFloor := some 4, moving := true
    fq := [.ackFrame .nak id2], txq := [encodeAck .ack id1, encodeCmd id2 0x0010 3], txIdx := 4, txActive := true
    dedup := [⟨0x0001, 5, 0⟩, ⟨0x0002, 0, 7⟩], sessState := .linked, backoffDelay := 2000, sched := [.txByte] }

theorem busy_inv : Inv busy where
  cfgOk := by decide
  failCntZero := fun _ => rfl
  failCntRange := fun h => by cases h
  movingTarget := rfl
  targetNonzero := by decide
  retryIdle := fun h => by cases h
  retryBound := by decide
  downQuiet := fun h => by cases h
  stoppedDown := fun h => by cases h
  rxBound := by decide
  fqBound := by decide
  txqBound := by decide
  fqFrames := by decide
  fqNak := fun _ _ => rfl
  txqFrames := by decide
  txIdxHead := .inr ⟨_, _, rfl, by decide⟩
  txActiveIdx := by decide
  dedupCanonical := by decide
  handshakeOff := fun h => by cases h
  backoffRange := .inr (by decide)

theorem test_witness_TransmitterSendsTheNextByte :
    busy.sched = .txByte :: [] ∧ linkUp busy = true ∧ busy.txq = encodeAck .ack id1 :: [encodeCmd id2 0x0010 3]
      ∧ (encodeAck .ack id1)[busy.txIdx.toNat]? = some 0x31 ∧ busy.txIdx.toNat + 1 = (encodeAck .ack id1).length
      ∧ (encodeAck .ack id1)[({ busy with txIdx := 3 } : State).txIdx.toNat]? = some 0x30
      ∧ ({ busy with txIdx := 3 } : State).txIdx.toNat + 1 ≠ (encodeAck .ack id1).length
      ∧ (act .txByte { busy with txIdx := 3 }).map (fun s => (s.lineOut, s.txIdx, s.txq.length)) = some ([0x30], 4, 2)
      ∧ linkUp State.reset = false ∧ (up ctl).txq = [] := by decide
theorem test_witness_ResetValues :
    ({ busy with sched := [.rst] } : State).sched = .rst :: []
      ∧ (act .rst busy).map (fun s => (s.fq, s.txq, s.dedup)) = some ([], [], []) := by decide
theorem test_witness_LineCarriesFramesInSendOrder :
    Inv busy ∧ linkUp busy = true ∧ busy.txq ≠ [] ∧ busy.sched = .txByte :: []
      ∧ (nextOf (step busy)).map (·.lineOut) = some [0x31] := ⟨busy_inv, by decide⟩
theorem test_witness_EchoOfOwnFramesIsHarmless :
    (tight ctl).cfg.ok = true ∧ linkUp (tight ctl) = true ∧ (tight ctl).txq.length + 2 ≤ (tight ctl).cfg.txqDepth := by
  decide

/-- An exchange whose timer has just run out, after `n` resends. -/
def overdue (n : BitVec 8) : State :=
  { up ctl with
    pendValid := true, pendDn := 0x0010, pendValue := 3, retryCnt := n, ackT0 := 0, now := 3000, sched := [.xTimeout] }

theorem test_witness_TimeoutResendsOrGivesUp :
    (overdue 7).sched = .xTimeout :: [] ∧ linkUp (overdue 7) = true ∧ (overdue 7).pendValid = true
      ∧ (overdue 7).cfg.ackTimeout ≤ ((overdue 7).now - (overdue 7).ackT0).toNat ∧ (overdue 7).fq = []
      ∧ (overdue 7).txq.length < (overdue 7).cfg.txqDepth ∧ (overdue 7).retryCnt.toNat < (overdue 7).cfg.maxRetries
      ∧ (overdue 8).cfg.maxRetries ≤ (overdue 8).retryCnt.toNat := by decide
theorem test_witness_TimeoutResendsOrGivesUp_not_enabled :
    (({ overdue 7 with now := 2999 } : State).now - (overdue 7).ackT0).toNat < (overdue 7).cfg.ackTimeout
      ∧ ({ overdue 7 with fq := [.ackFrame .ack id2] } : State).fq ≠ []
      ∧ (overdue 7).cfg.txqDepth ≤ ({ overdue 7 with txq := List.replicate 4 [0x06] } : State).txq.length
      ∧ ({ overdue 7 with pendValid := false } : State).pendValid = false
      ∧ linkUp { overdue 7 with linkState := .disconnected } = false := by decide
theorem test_witness_UnansweredExchangeEndsInRetryExhausted :
    (overdue 0).cfg.ok = true ∧ linkUp (overdue 0) = true ∧ (overdue 0).pendValid = true ∧ (overdue 0).retryCnt = 0
      ∧ (overdue 0).fq = [] ∧ ({ overdue 0 with ackT0 := 3000 } : State).ackT0 = (overdue 0).now
      ∧ 8 ≤ (overdue 0).cfg.maxRetries := by decide
theorem test_witness_StepKeepsTheInvariant : Inv busy ∧ (nextOf (step busy)).isSome = true := ⟨busy_inv, by decide⟩
theorem test_witness_NoErrorStopsTheBlock :
    ((act (.host 0x000000000) busy).bind (·.hostReply)).map (·.status) = some 0
      ∧ ((act (.host 0x300100000) busy).bind (·.hostReply)).map (·.status) = some 10 := by decide
theorem test_witness_OwnersWriteTheirRegisters :
    (act .xFrame { up ctl with fq := [.cmd id1 0x0003 9] }).map elevatorStatus ≠ some (elevatorStatus (up ctl))
      ∧ (act .devError busy).map (·.linkState) = some .disconnected := by decide
theorem test_witness_SessionStateMovesOnePlace :
    (act .xFrame { up ctl with fq := [.cmd id1 0x0020 0] }).map (·.sessState) = some .handshaking
      ∧ (act .devError busy).map (·.sessState) = some .idle := by decide
theorem test_witness_TimeAndConfigurationWriters :
    (act .tick { busy with now := 0xFFFFFFFF }).map (·.now) = some 0
      ∧ (act .txByte busy).map (·.now) = some 100 := by decide
theorem test_witness_OutputsOnlyGrow :
    (act .rst { busy with events := [.ackSent] }).map (·.events) = some []
      ∧ (act .txByte busy).map (·.lineOut) = some [0x31]
      ∧ (act .lOpen { State.reset with linkEnable := true }).map (·.events) = some [.openAttempt 1] := by decide
theorem test_witness_StoppedBlockIsSilent :
    State.reset.linkEnable = false ∧ State.reset.linkState = .disconnected
      ∧ ({ State.reset with sched := [.rxChar 5 false false] } : State).sched = .rxChar 5 false false :: []
      ∧ (Action.rxChar 5 false false).isTimeOrHost = false := by decide

end Sys2Proof.Tests
end

section
/-! The invariant at reset. -/

namespace Sys2Proof.Machine

/-- The defaults of 00_scope.md R7 meet the premises of R8, with the values of log 1 for the OPEN parameters. -/
theorem default_config_ok : Config.default.ok = true := by decide

/-- Reset holds nothing and counts nothing, so each promise of the invariant is met by an empty buffer, a zero counter, or
a link that is Disconnected; only the premises on the parameters are asked of the configuration. -/
theorem resetWith_inv {c : Config} (hc : c.ok = true) : Inv (State.resetWith c) where
  cfgOk := hc
  failCntZero := fun _ => rfl
  failCntRange := fun hdegraded => nomatch hdegraded
  movingTarget := rfl
  targetNonzero := fun hsome => nomatch hsome
  retryIdle := fun _ => rfl
  retryBound := Nat.zero_le _
  downQuiet := fun _ => ⟨rfl, rfl, rfl, rfl, rfl⟩
  stoppedDown := fun _ => rfl
  rxBound := Nat.zero_le _
  fqBound := Nat.zero_le _
  txqBound := Nat.zero_le _
  fqFrames := List.forall_mem_nil _
  fqNak := fun _ hmem => absurd hmem List.not_mem_nil
  txqFrames := List.forall_mem_nil _
  txIdxHead := .inl rfl
  txActiveIdx := rfl
  dedupCanonical := reset_dedup_wf c
  handshakeOff := fun _ => rfl
  backoffRange := .inl rfl

/-- Settles O53: every configuration that meets its premises, then the default one as an instance. -/
theorem resetMeetsTheInvariant : Obligations.ResetMeetsTheInvariant :=
  ⟨fun _ hc => resetWith_inv hc, resetWith_inv default_config_ok⟩

end Sys2Proof.Machine
end

section
/-! The invariant along every step. Each operation is shown once to keep `Inv`; a step is a composition of them. -/

namespace Sys2Proof.Machine

/-! ## What every outcome of a step satisfies -/

/-- Whatever state an outcome goes on to satisfies `P`. -/
def AllNext (P : State → Prop) (o : Host.Outcome State Fault Refusal) : Prop := ∀ t, o = .next t → P t

theorem allNext_next {P : State → Prop} {s : State} (hs : P s) : AllNext P (.next s) := by
  intro t ht
  cases ht
  exact hs

theorem allNext_onFrame {P : State → Prop} {body : State → State} {s : State} (hwait : P s)
    (hrun : frameReady s = true → P (body (fqPop s))) : AllNext P (onFrame body s) := by
  intro t ht
  rcases onFrame_next ht with ⟨hr, rfl⟩ | ⟨_, rfl⟩
  · exact hrun hr
  · exact hwait

/-! ## The premises on the parameters that a counter or a delay rests on -/

theorem config_ok_bounds {c : Config} (hc : c.ok = true) :
    c.backoffMax < 2 ^ 31 ∧ c.backoffMin ≤ c.backoffMax ∧ c.maxRetries < 255 ∧ c.failLimit < 256 := by
  simp only [Config.ok, Bool.and_eq_true, decide_eq_true_eq] at hc
  omega

/-- The reconnect delay stays between its two bounds (43_link_scanner.md R181). -/
theorem nextDelay_range {c : Config} (hc : c.ok = true) (d : W32) :
    c.backoffMin ≤ (nextDelay c d).toNat ∧ (nextDelay c d).toNat ≤ c.backoffMax := by
  obtain ⟨hmax, hle, -, -⟩ := config_ok_bounds hc
  rw [nextDelay, BitVec.toNat_ofNat, Nat.mod_eq_of_lt (by omega)]
  omega

/-- The delay that a link loss starts from (43_link_scanner.md R182). -/
theorem firstDelay_range {c : Config} (hc : c.ok = true) :
    c.backoffMin ≤ (BitVec.ofNat 32 c.backoffMin).toNat
      ∧ (BitVec.ofNat 32 c.backoffMin).toNat ≤ c.backoffMax := by
  obtain ⟨hmax, hle, -, -⟩ := config_ok_bounds hc
  rw [BitVec.toNat_ofNat, Nat.mod_eq_of_lt (by omega)]
  omega

section
variable {s : State}

/-! ## Outputs and time -/

theorem inv_emit (hs : Inv s) (e : Event) : Inv (emit e s) := { hs with }
theorem inv_raise (hs : Inv s) (e : Error) : Inv (raise e s) := { hs with }
theorem inv_reply (hs : Inv s) (c : BitVec 4) (k : Option Snapshot) : Inv (reply c k s) := { hs with }
theorem inv_accept (hs : Inv s) : Inv (accept s) := inv_reply hs _ _
theorem inv_refuse (hs : Inv s) (e : Error) : Inv (refuse e s) := inv_reply (inv_raise hs e) _ _
theorem inv_pulse (hs : Inv s) (p : DevPulse) : Inv (pulse p s) := { hs with }
theorem inv_tick (hs : Inv s) : Inv (tick s) := { hs with }
theorem inv_beginStep (hs : Inv s) : Inv (beginStep s) := { hs with }

/-! ## The receive side -/

theorem inv_bufAppend (hs : Inv s) (hup : linkUp s = true) (hroom : s.rxBuf.length < s.cfg.rxbufSize) (b : Byte) :
    Inv (bufAppend b s) :=
  { hs with
    downQuiet := fun hdown => nomatch hup.symm.trans hdown
    rxBound := by simpa using hroom }

theorem inv_bufDrop (hs : Inv s) (n : Nat) : Inv (bufDrop n s) :=
  { hs with
    downQuiet := fun hdown => by
      obtain ⟨hrx, hrest⟩ := hs.downQuiet hdown
      exact ⟨by simp [hrx], hrest⟩
    rxBound := (List.drop_sublist n s.rxBuf).length_le.trans hs.rxBound }

theorem inv_fqPush (hs : Inv s) (hup : linkUp s = true) (hroom : fqFull s = false) {f : Frame} (hwf : f.wf = true)
    (hnak : ∀ st, f = .ackFrame .nak st → s.cfg.scanNak = true) : Inv (fqPush f s) :=
  { hs with
    downQuiet := fun hdown => nomatch hup.symm.trans hdown
    fqBound := by simpa [fqFull] using hroom
    fqFrames := fun g hg => by
      rcases List.mem_append.mp hg with hold | hnew
      · exact hs.fqFrames g hold
      · exact List.mem_singleton.mp hnew ▸ hwf
    fqNak := fun st hmem => by
      rcases List.mem_append.mp hmem with hold | hnew
      · exact hs.fqNak st hold
      · exact hnak st (List.mem_singleton.mp hnew).symm }

theorem inv_fqPop (hs : Inv s) : Inv (fqPop s) :=
  { hs with
    downQuiet := fun hdown => by
      obtain ⟨hrx, hfq, hrest⟩ := hs.downQuiet hdown
      exact ⟨hrx, by simp [hfq], hrest⟩
    fqBound := (List.tail_sublist s.fq).length_le.trans hs.fqBound
    fqFrames := fun f hf => hs.fqFrames f (List.mem_of_mem_tail hf)
    fqNak := fun st hmem => hs.fqNak st (List.mem_of_mem_tail hmem) }

theorem inv_dedupUpdate (hs : Inv s) (dn v : W16) : Inv (dedupUpdate dn v s) := by
  unfold dedupUpdate
  split
  · exact hs
  · exact { hs with dedupCanonical := dedupWrite_wf s.dedup dn v s.now hs.dedupCanonical }

/-! ## The transmit side -/

/-- A frame goes behind the one being sent, so the index stays inside the head. -/
theorem inv_txPush (hs : Inv s) (hup : linkUp s = true) (hroom : s.txq.length < s.cfg.txqDepth) {B : List Byte}
    (hB : B.length = 5 ∨ B.length = 16) : Inv (txPush B s) :=
  { hs with
    downQuiet := fun hdown => nomatch hup.symm.trans hdown
    txqBound := by simpa using hroom
    txqFrames := fun F hF => by
      rcases List.mem_append.mp hF with hold | hnew
      · exact hs.txqFrames F hold
      · exact List.mem_singleton.mp hnew ▸ hB
    txIdxHead := hs.txIdxHead.imp_right fun ⟨F, r, htxq, hidx⟩ => ⟨F, r ++ [B], by simp [htxq], hidx⟩ }

theorem inv_send (hs : Inv s) (hroom : s.txq.length < s.cfg.txqDepth) {B : List Byte}
    (hB : B.length = 5 ∨ B.length = 16) : Inv (send B s) := by
  cases hup : linkUp s with
  | true => exact send_up hup B ▸ inv_txPush hs hup hroom hB
  | false => exact send_down hup B ▸ inv_raise hs _

theorem inv_flushQueues (hs : Inv s) : Inv (flushQueues s) :=
  { hs with
    downQuiet := fun hdown => by
      obtain ⟨-, -, -, hpend, hsess⟩ := hs.downQuiet hdown
      exact ⟨rfl, rfl, rfl, hpend, hsess⟩
    rxBound := Nat.zero_le _
    fqBound := Nat.zero_le _
    txqBound := Nat.zero_le _
    fqFrames := List.forall_mem_nil _
    fqNak := fun _ hmem => absurd hmem List.not_mem_nil
    txqFrames := List.forall_mem_nil _
    txIdxHead := .inl rfl
    txActiveIdx := rfl }

/-- The index moves on by one inside the head frame, which has at most 16 bytes, so the four bits of `tx_idx` do not
wrap; with the head's last byte the frame goes and the index is 0 again (42_serial_phy.md R152). -/
theorem inv_txByte (hs : Inv s) : Inv (txByte s) := by
  unfold txByte
  split
  next hup =>
    split
    next => exact hs
    next F r htxq =>
      split
      next => exact hs
      next b hb =>
        have hidx : s.txIdx.toNat < F.length := (List.getElem?_eq_some_iff.mp hb).1
        have hlen : F.length = 5 ∨ F.length = 16 := hs.txqFrames F (by simp [htxq])
        have hbound : (F :: r).length ≤ s.cfg.txqDepth := htxq ▸ hs.txqBound
        dsimp only
        split
        next =>
          exact
            { hs with
              downQuiet := fun hdown => nomatch hup.symm.trans hdown
              txqBound := (Nat.le_succ _).trans hbound
              txqFrames := fun G hG => hs.txqFrames G (by simp [htxq, hG])
              txIdxHead := .inl rfl
              txActiveIdx := rfl }
        next hmore =>
          have hsucc : (s.txIdx + 1).toNat = s.txIdx.toNat + 1 := BitVec.toNat_add_of_lt (y := 1) (by simp; omega)
          have hne : s.txIdx + 1 ≠ 0 := fun hzero => nomatch (congrArg BitVec.toNat hzero).symm.trans hsucc
          exact
            { hs with
              txIdxHead := .inr ⟨F, r, htxq, by dsimp only; omega⟩
              txActiveIdx := (decide_eq_true hne).symm }
  next => exact hs

/-! ## The exchange and the session -/

theorem inv_endExchange (hs : Inv s) : Inv (endExchange s) :=
  { hs with
    retryIdle := fun _ => rfl
    retryBound := Nat.zero_le _
    downQuiet := fun hdown => by
      obtain ⟨hrx, hfq, htxq, -, hsess⟩ := hs.downQuiet hdown
      exact ⟨hrx, hfq, htxq, rfl, hsess⟩ }

theorem inv_exchangeSuccess (hs : Inv s) : Inv (exchangeSuccess s) := inv_endExchange (inv_emit hs _)

theorem inv_cancelExchange (hs : Inv s) : Inv (cancelExchange s) := by
  unfold cancelExchange
  split
  · exact inv_endExchange (inv_emit hs _)
  · exact hs

/-- The session may go to Idle at any time, and elsewhere only over a link and with the handshake. -/
theorem inv_setSess (hs : Inv s) {new : SessState}
    (hnew : new = .idle ∨ (linkUp s = true ∧ s.cfg.handshakeEn = true)) : Inv (setSess new s) := by
  unfold setSess
  split
  · exact hs
  · refine inv_emit ?_ _
    refine { hs with downQuiet := fun hdown => ?_, handshakeOff := fun hoff => ?_ }
    · obtain ⟨hrx, hfq, htxq, hpend, -⟩ := hs.downQuiet hdown
      exact ⟨hrx, hfq, htxq, hpend, hnew.resolve_right fun ⟨hup, _⟩ => nomatch hup.symm.trans hdown⟩
    · exact hnew.resolve_right fun ⟨_, hen⟩ => nomatch hen.symm.trans hoff

theorem inv_advance (hs : Inv s) (hup : linkUp s = true) (hen : s.cfg.handshakeEn = true) (old new : SessState) :
    Inv (advance old new s) := by
  unfold advance
  split
  · exact inv_setSess hs (.inr ⟨hup, hen⟩)
  · exact hs

/-- The effect of `X-TIMEOUT`: the counter goes up only while it is below `MAX_RETRIES`, which is below 255. -/
theorem inv_xTimeout (hs : Inv s) : Inv (xTimeout s) := by
  unfold xTimeout
  split
  next hen =>
    simp only [xTimeoutEnabled, txqRoom, Bool.and_eq_true, decide_eq_true_eq] at hen
    obtain ⟨⟨⟨⟨hup, hpend⟩, -⟩, -⟩, hroom⟩ := hen
    dsimp only
    split
    next hlt =>
      obtain ⟨-, -, hmax, -⟩ := config_ok_bounds hs.cfgOk
      have hsucc : (s.retryCnt + 1).toNat = s.retryCnt.toNat + 1 := BitVec.toNat_add_of_lt (y := 1) (by simp; omega)
      have hsend := inv_send (B := encodeCmd s.cfg.peerId s.pendDn s.pendValue)
        (inv_raise hs (.ackTimeout s.pendDn s.retryCnt)) hroom (.inr rfl)
      refine inv_emit ?_ _
      refine { hsend with retryIdle := fun hidle => ?_, retryBound := ?_ }
      · simp [hpend] at hidle
      · simp only [send_cfg, raise_cfg, hsucc]
        exact hlt
    next => exact inv_endExchange (inv_raise (inv_raise hs _) _)
  next => exact hs

/-! ## The effects of the reports and the commands -/

/-- Every target that is not the none sentinel may be set, with `moving` (10_state.md R25, R28). -/
theorem inv_setTarget (hs : Inv s) {t : Option W16} (ht : t ≠ some 0x0000) : Inv (setTarget t s) :=
  { hs with movingTarget := rfl, targetNonzero := ht }

theorem inv_currentFloorReport (v : W16) (hs : Inv s) : Inv (currentFloorReport v s) := by
  unfold currentFloorReport
  dsimp only
  split
  · exact { hs with }
  · exact { hs with }

theorem inv_loadReport (v : W16) (hs : Inv s) : Inv (loadReport v s) := by
  unfold loadReport
  dsimp only
  split
  · exact { hs with }
  · exact { hs with }

theorem inv_targetFloorReport (v : W16) (hs : Inv s) : Inv (targetFloorReport v s) := by
  have hnone : (none : Option W16) ≠ some 0x0000 := by simp
  unfold targetFloorReport
  split
  next =>
    split
    next t _ =>
      have hfloor : Inv { s with currentFloor := t } := { hs with }
      exact inv_emit (inv_setTarget hfloor hnone) _
    next => exact hs
  next hv =>
    split
    · exact inv_emit (inv_setTarget hs hnone) _
    · refine inv_setTarget ?_ (by simpa using hv)
      split
      · exact inv_emit hs _
      · exact hs

theorem inv_doorCommand (dn v : W16) (hs : Inv s) : Inv (doorCommand dn v s) := by
  unfold doorCommand
  split
  · dsimp only
    split
    · exact { hs with }
    · exact { hs with }
  · exact inv_emit hs _

theorem inv_ackEffect (st : Station) (hs : Inv s) : Inv (ackEffect st s) := by
  unfold ackEffect
  split
  · exact inv_exchangeSuccess hs
  · exact inv_emit hs _

/-! ## The common way to a command's own effect -/

/-- Where a command's own effect begins: the link is up, and of the two places of 45_session_rx.md R220 the ACK has left
one for a response. -/
structure Acked (c : Config) (s : State) : Prop where
  inv : Inv s
  up : linkUp s = true
  room : s.txq.length < s.cfg.txqDepth
  cfg : s.cfg = c

theorem inv_sendAck (hs : Inv s) (hroom : s.txq.length < s.cfg.txqDepth) : Inv (sendAck s) :=
  inv_emit (inv_send hs hroom (.inl rfl)) _

theorem acked_of_room (hs : Inv s) (hup : linkUp s = true) (hroom : s.txq.length + 2 ≤ s.cfg.txqDepth) (dn v : W16) :
    Acked s.cfg (emit (.report dn v) (dedupUpdate dn v (sendAck s))) where
  inv := inv_emit (inv_dedupUpdate (inv_sendAck hs (by omega)) dn v) _
  up := by simpa [linkUp, sendAck] using hup
  room := by simpa [sendAck, send_up hup] using Nat.lt_of_succ_le hroom
  cfg := by simp [sendAck]

/-- A CommandFrame keeps the invariant when its own effect does, from where that begins. -/
theorem inv_command (hs : Inv s) {body : State → State} (hbody : ∀ u, Acked s.cfg u → Inv (body u)) (st : Station)
    (dn v : W16) : AllNext Inv (onFrame (onCommand st dn v body) s) := by
  refine allNext_onFrame hs fun hready => ?_
  obtain ⟨hup, hroom⟩ := (frameReady_iff s).mp hready
  have hpop := inv_fqPop hs
  rcases onCommand_cases st dn v body (fqPop s) with ⟨_, he⟩ | ⟨_, _, he⟩ | ⟨_, _, he⟩ <;> rw [he]
  · exact inv_emit hpop _
  · exact inv_emit (inv_sendAck hpop (Nat.lt_of_succ_lt hroom)) _
  · exact hbody _ (acked_of_room hpop hup hroom dn v)

theorem inv_consumedCommand (hs : Inv s) {body : State → State} (hbody : ∀ {u : State}, Inv u → Inv (body u))
    (st : Station) (dn v : W16) : AllNext Inv (onFrame (onCommand st dn v (ifConsumed dn v body)) s) := by
  refine inv_command hs (fun u hu => ?_) st dn v
  rcases ifConsumed_cases dn v body u with ⟨_, he⟩ | ⟨_, he⟩ <;> rw [he]
  · exact hbody hu.inv
  · exact inv_emit hu.inv _

/-! ## The handshake -/

theorem inv_handshakeRequest {c : Config} (hen : c.handshakeEn = true) (hu : Acked c s) (req rsp v : W16)
    (old new : SessState) : Inv (handshakeRequest req rsp v old new s) := by
  have hsend : Inv (sendResponse rsp req v s) := inv_emit (inv_send hu.inv hu.room (.inr rfl)) _
  refine inv_advance hsend ?_ ?_ old new
  · simpa [sendResponse] using hu.up
  · simpa [sendResponse, hu.cfg] using hen

theorem inv_handshakeResponse {c : Config} (hen : c.handshakeEn = true) (hu : Acked c s) (dn : W16)
    (old new : SessState) : Inv (handshakeResponse dn old new s) := by
  have henS : s.cfg.handshakeEn = true := hu.cfg ▸ hen
  unfold handshakeResponse
  split
  · exact inv_advance (inv_exchangeSuccess hu.inv) hu.up henS old new
  · exact inv_advance hu.inv hu.up henS old new

theorem inv_requestFrame (hs : Inv s) (hen : s.cfg.handshakeEn = true) (st : Station) (req rsp v : W16)
    (old new : SessState) : AllNext Inv (onFrame (onCommand st req v (handshakeRequest req rsp v old new)) s) :=
  inv_command hs (fun _ hu => inv_handshakeRequest hen hu req rsp v old new) st req v

theorem inv_responseFrame (hs : Inv s) (hen : s.cfg.handshakeEn = true) (st : Station) (dn v : W16)
    (old new : SessState) : AllNext Inv (onFrame (onCommand st dn v (handshakeResponse dn old new)) s) :=
  inv_command hs (fun _ hu => inv_handshakeResponse hen hu dn old new) st dn v

/-! ## The host operations -/

/-- Not started implies Disconnected, so `START` finds no failure outstanding that its reset of the count could miss. -/
theorem inv_sessionStart (hs : Inv s) (hoff : s.linkEnable = false) : Inv (sessionStart s) where
  cfgOk := hs.cfgOk
  failCntZero := fun _ => rfl
  failCntRange := fun hdegraded => nomatch (hs.stoppedDown hoff).symm.trans hdegraded
  movingTarget := rfl
  targetNonzero := fun hsome => nomatch hsome
  retryIdle := fun _ => rfl
  retryBound := Nat.zero_le _
  downQuiet := fun _ => ⟨rfl, rfl, rfl, rfl, rfl⟩
  stoppedDown := fun hstopped => nomatch hstopped
  rxBound := Nat.zero_le _
  fqBound := Nat.zero_le _
  txqBound := Nat.zero_le _
  fqFrames := List.forall_mem_nil _
  fqNak := fun _ hmem => absurd hmem List.not_mem_nil
  txqFrames := List.forall_mem_nil _
  txIdxHead := .inl rfl
  txActiveIdx := rfl
  dedupCanonical := rfl
  handshakeOff := fun _ => rfl
  backoffRange := .inl rfl

/-- `STOP` leaves the registers that the invariant speaks of as reset does. -/
theorem inv_sessionStop (hs : Inv s) : Inv (sessionStop s) := { resetWith_inv hs.cfgOk with }

theorem inv_rst (hs : Inv s) : Inv (rst s) := { resetWith_inv hs.cfgOk with }

theorem inv_stopNotice (hs : Inv s) : Inv (stopNotice s) := by
  unfold stopNotice
  split
  · exact inv_emit hs _
  · exact hs

theorem inv_closeDevice (hs : Inv s) : Inv (closeDevice s) := by
  unfold closeDevice
  split
  · exact inv_pulse hs _
  · exact hs

theorem inv_beginExchange (hs : Inv s) (hup : linkUp s = true) (hroom : s.txq.length < s.cfg.txqDepth) (dn v : W16) :
    Inv (beginExchange dn v s) :=
  { inv_send (B := encodeCmd s.cfg.peerId dn v) hs hroom (.inr rfl) with
    retryIdle := fun _ => rfl
    retryBound := Nat.zero_le _
    downQuiet := fun hdown => nomatch hup.symm.trans ((linkUp_send _ s).symm.trans hdown) }

theorem inv_execStart (hs : Inv s) : AllNext Inv (execStart s) := by
  unfold execStart
  split
  · exact allNext_next (inv_refuse hs _)
  next hoff => exact allNext_next (inv_accept (inv_emit (inv_sessionStart hs (by simpa using hoff)) _))

theorem inv_execIssue (hs : Inv s) (dn v : W16) : AllNext Inv (execIssue dn v s) := by
  unfold execIssue
  split
  · exact allNext_next (inv_refuse hs _)
  split
  · exact allNext_next (inv_refuse hs _)
  next hup =>
    split
    · exact allNext_next (inv_refuse hs _)
    next hfree =>
      simp only [Bool.or_eq_true, Bool.not_eq_true', not_or, Bool.not_eq_false, txqRoom, decide_eq_true_eq] at hup hfree
      exact allNext_next (inv_accept (inv_emit (inv_beginExchange hs hup hfree.2 dn v) _))

/-! ## Every instruction -/

/-- A handshake row is in force only with `HANDSHAKE_EN`, which is what keeps the session Idle without it. -/
theorem inv_exec (i : Instr) (hs : Inv s) (hi : i.isHandshake = true → s.cfg.handshakeEn = true) :
    AllNext Inv (exec i s) := by
  cases i with
  | curFloor st v => exact inv_consumedCommand hs (inv_currentFloorReport v) st _ v
  | tgtFloor st v => exact inv_consumedCommand hs (inv_targetFloorReport v) st _ v
  | tgtNone st => exact inv_consumedCommand hs (inv_targetFloorReport _) st _ _
  | load st v => exact inv_consumedCommand hs (inv_loadReport v) st _ v
  | floorSet st v => exact inv_consumedCommand hs (fun hu => inv_emit hu _) st _ v
  | doorCtl st v => exact inv_consumedCommand hs (inv_doorCommand _ v) st _ v
  | doorStop st => exact inv_consumedCommand hs (inv_doorCommand _ _) st _ _
  | doorOpen st => exact inv_consumedCommand hs (inv_doorCommand _ _) st _ _
  | doorClose st => exact inv_consumedCommand hs (inv_doorCommand _ _) st _ _
  | floorCmd st v => exact inv_consumedCommand hs (fun hu => inv_emit hu _) st _ v
  | doorCmd st v => exact inv_consumedCommand hs (inv_doorCommand _ v) st _ v
  | unknownDn st dn v => exact inv_command hs (fun _ hu => inv_emit hu.inv _) st dn v
  | ping st v => exact inv_requestFrame hs (hi rfl) st _ _ v _ _
  | statusReq st v => exact inv_requestFrame hs (hi rfl) st _ _ v _ _
  | controlReq st v => exact inv_requestFrame hs (hi rfl) st _ _ v _ _
  | pong st v => exact inv_responseFrame hs (hi rfl) st _ v _ _
  | statusRsp st v => exact inv_responseFrame hs (hi rfl) st _ v _ _
  | controlAck st v => exact inv_responseFrame hs (hi rfl) st _ v _ _
  | ack st => exact allNext_onFrame hs fun _ => inv_ackEffect st (inv_fqPop hs)
  | nak st => exact allNext_onFrame hs fun _ => inv_emit (inv_fqPop hs) _
  | nop => exact allNext_next (inv_accept hs)
  | start => exact inv_execStart hs
  | stop => exact allNext_next (inv_accept (inv_emit (inv_sessionStop (inv_closeDevice (inv_stopNotice hs))) _))
  | issue dn v => exact inv_execIssue hs dn v
  | snapshot => exact allNext_next (inv_reply hs _ _)

/-- The rows after the base registry's are reached only with `HANDSHAKE_EN` (30_encoding.md R107). -/
theorem classifyCmd_isHandshake {c : Config} {st : Station} {dn v : W16}
    (h : (classifyCmd c st dn v).isHandshake = true) : c.handshakeEn = true := by
  cases hen : c.handshakeEn with
  | true => rfl
  | false =>
    simp only [classifyCmd, hen, Bool.not_false, if_true] at h
    split_ifs at h <;> cases h

theorem classify_isHandshake {c : Config} {f : Frame} (h : (classify c f).isHandshake = true) :
    c.handshakeEn = true := by
  cases f with
  | cmd st dn v => exact classifyCmd_isHandshake h
  | ackFrame k st => cases k <;> cases h

/-- A host word is no frame, so it is none of the handshake rows (30_encoding.md R110). -/
theorem decodeHop_isHandshake {w : BitVec 36} {i : Instr} (h : decodeHop w = .ok i) : i.isHandshake = false := by
  unfold decodeHop at h
  dsimp only at h
  split_ifs at h <;> cases h <;> rfl

theorem inv_xFrame (hs : Inv s) : AllNext Inv (xFrame s) := by
  unfold xFrame
  split
  · exact allNext_next hs
  · exact inv_exec _ hs classify_isHandshake

theorem inv_hostOp (hs : Inv s) (w : BitVec 36) : AllNext Inv (hostOp w s) := by
  unfold hostOp
  split
  next i hi => exact inv_exec i hs fun hh => nomatch (decodeHop_isHandshake hi).symm.trans hh
  next => exact allNext_next (inv_refuse hs _)

/-! ## The link -/

/-- What 43_link_scanner.md R182 asks of a link that is not up: nothing held, pending or advanced. -/
def Quiet (s : State) : Prop :=
  s.rxBuf = [] ∧ s.fq = [] ∧ s.txq = [] ∧ s.pendValid = false ∧ s.sessState = .idle

/-- A quiet block may be disconnected with no failure outstanding. -/
theorem inv_disconnect (hs : Inv s) (hquiet : Quiet s) {n : BitVec 8} (hn : n = 0) :
    Inv { s with linkState := .disconnected, failCnt := n } :=
  { hs with
    failCntZero := fun _ => hn
    failCntRange := fun hdegraded => nomatch hdegraded
    downQuiet := fun _ => hquiet
    stoppedDown := fun _ => rfl }

theorem inv_setBackoff (hs : Inv s) {d : W32}
    (hd : s.cfg.backoffMin ≤ d.toNat ∧ d.toNat ≤ s.cfg.backoffMax) (k : W16) (t0 : W32) :
    Inv { s with attemptCnt := k, backoffDelay := d, backoffT0 := t0 } :=
  { hs with backoffRange := .inr hd }

/-- The part of `LinkDown` that quiets the block. -/
def quieten (s : State) : State := setSess .idle (cancelExchange (flushQueues s))

theorem quiet_quieten (s : State) : Quiet (quieten s) := by
  simp [Quiet, quieten, flushQueues]

theorem inv_quieten (hs : Inv s) : Inv (quieten s) :=
  inv_setSess (inv_cancelExchange (inv_flushQueues hs)) (.inl rfl)

/-- `LinkDown` may be read as quieting the block first and then dropping the link: the one does not touch what the other
writes. -/
theorem linkDown_eq (cause : LinkCause) (s : State) :
    linkDown cause s =
      { quieten (pulse .close (emit (.linkDown cause) s)) with
        linkState := .disconnected
        failCnt := 0
        attemptCnt := 0
        backoffDelay := BitVec.ofNat 32 s.cfg.backoffMin
        backoffT0 := s.now } := by
  cases hp : s.pendValid <;> by_cases hi : s.sessState = .idle <;>
    simp [linkDown, quieten, setSess, cancelExchange, flushQueues, endExchange, emit, pulse, hp, hi]

theorem inv_linkDown (hs : Inv s) (cause : LinkCause) : Inv (linkDown cause s) := by
  have hquieten := inv_quieten (inv_pulse (inv_emit hs (.linkDown cause)) .close)
  rw [linkDown_eq]
  refine inv_setBackoff (inv_disconnect hquieten (quiet_quieten _) rfl) ?_ _ _
  simpa [quieten, flushQueues] using firstDelay_range hs.cfgOk

theorem inv_clearFailures (hs : Inv s) : Inv (clearFailures s) := by
  by_cases hd : s.linkState = .degraded
  · simp only [clearFailures, hd, if_true]
    exact
      { hs with
        failCntZero := fun _ => rfl
        failCntRange := fun hdegraded => nomatch hdegraded
        downQuiet := fun hdown => nomatch hdown
        stoppedDown := fun hoff => nomatch hd.symm.trans (hs.stoppedDown hoff) }
  · simp only [clearFailures, hd, if_false]
    exact { hs with failCntZero := fun _ => rfl, failCntRange := fun hdegraded => absurd hdegraded hd }

/-- One more failure below `FAIL_LIMIT`, which is below 256, so the count does not wrap. -/
theorem inv_degrade (hs : Inv s) (hup : linkUp s = true) (hlt : s.failCnt.toNat + 1 < s.cfg.failLimit) :
    Inv (degrade s) := by
  obtain ⟨-, -, -, hlimit⟩ := config_ok_bounds hs.cfgOk
  have hsucc : (s.failCnt + 1).toNat = s.failCnt.toNat + 1 := BitVec.toNat_add_of_lt (y := 1) (by simp; omega)
  exact
    { hs with
      failCntZero := fun hnot => absurd rfl hnot
      failCntRange := fun _ => by simp only [degrade_failCnt, degrade_cfg, hsucc]; omega
      downQuiet := fun hdown => nomatch hdown
      stoppedDown := fun hoff => by
        have hdisc := hs.stoppedDown hoff
        simp [linkUp, hdisc, LinkState.up] at hup }

theorem inv_softFail (hs : Inv s) (hup : linkUp s = true) : Inv (softFail s) := by
  unfold softFail
  split
  · exact inv_linkDown (inv_raise hs _) _
  next hlt => exact inv_degrade hs hup (Nat.lt_of_not_le hlt)

theorem inv_rxChar (hs : Inv s) (b : Byte) (perr ferr : Bool) : Inv (rxChar b perr ferr s) := by
  have hheard : Inv { s with lastRxTime := s.now } := { hs with }
  unfold rxChar
  split
  next hup =>
    dsimp only
    split
    · exact inv_softFail (inv_raise hheard _) hup
    split
    · exact inv_softFail (inv_raise hheard _) hup
    next hroom => exact inv_clearFailures (inv_bufAppend hheard hup (Nat.lt_of_not_le hroom) b)
  next => exact hs

theorem inv_rxBits (hs : Inv s) (bits : List Bool) : Inv (rxBits bits s) := by
  unfold rxBits
  split
  · exact hs
  · exact inv_rxChar hs _ _ _

theorem inv_lOpen (hs : Inv s) : Inv (lOpen s) := by
  unfold lOpen
  split
  next hen =>
    simp only [lOpenEnabled, Bool.and_eq_true, beq_iff_eq] at hen
    obtain ⟨⟨hdisc, hon⟩, -⟩ := hen
    have hopen : Inv { s with linkState := .connecting } :=
      { hs with
        failCntZero := fun _ => hs.failCntZero (by simp [hdisc])
        failCntRange := fun hdegraded => nomatch hdegraded
        downQuiet := fun _ => hs.downQuiet (by simp [linkUp, hdisc, LinkState.up])
        stoppedDown := fun hoff => nomatch hon.symm.trans hoff }
    exact inv_emit (inv_pulse hopen _) _
  next => exact hs

theorem inv_devOpenOk (hs : Inv s) : Inv (devOpenOk s) := by
  unfold devOpenOk
  split
  next hconn =>
    refine inv_emit ?_ _
    exact
      { hs with
        failCntZero := fun _ => rfl
        failCntRange := fun hdegraded => nomatch hdegraded
        downQuiet := fun hdown => nomatch hdown
        stoppedDown := fun hoff => nomatch hconn.symm.trans (hs.stoppedDown hoff)
        rxBound := Nat.zero_le _
        backoffRange := .inl rfl }
  next => exact hs

theorem inv_devOpenFail (hs : Inv s) : Inv (devOpenFail s) := by
  unfold devOpenFail
  split
  next hconn =>
    have hquiet : Quiet s := hs.downQuiet (by simp [linkUp, hconn, LinkState.up])
    have hclosed := inv_disconnect hs hquiet (hs.failCntZero (by simp [hconn]))
    dsimp only
    split
    · exact { hclosed with stoppedDown := fun _ => rfl }
    · exact { hclosed with backoffRange := .inr (nextDelay_range hs.cfgOk _) }
  next => exact hs

theorem inv_devError (hs : Inv s) : Inv (devError s) := by
  unfold devError
  split
  · exact inv_linkDown (inv_raise hs _) _
  split
  · exact inv_devOpenFail hs
  · exact hs

theorem inv_lIdle (hs : Inv s) : Inv (lIdle s) := by
  unfold lIdle
  split
  · exact inv_linkDown (inv_raise hs _) _
  · exact hs

/-! ## The scanner -/

theorem decodeCmd_ok {B : List Byte} {f : Frame} (h : decodeCmd B = .ok f) :
    ∃ st dn v, f = .cmd st dn v ∧ st.isDigits = true := by
  unfold decodeCmd at h
  split at h
  next =>
    split_ifs at h with hdigits
    dsimp only at h
    split_ifs at h
    cases h
    exact ⟨_, _, _, rfl, by simpa [Station.isDigits] using hdigits⟩
  next => cases h

theorem decodeAck_ok {k : AckKind} {B : List Byte} {f : Frame} (h : decodeAck k B = .ok f) :
    ∃ st, f = .ackFrame k st ∧ st.isDigits = true := by
  unfold decodeAck at h
  split at h
  next =>
    split_ifs at h with hdigits
    cases h
    exact ⟨_, rfl, by simpa [Station.isDigits] using hdigits⟩
  next => cases h

/-- The first byte of a frame names its form, and its station is four digits (41_frame_codec.md R132, R133, R134). -/
theorem decodeFrame_ok {b : Byte} {B : List Byte} {f : Frame} (h : decodeFrame (b :: B) = .ok f) :
    (∃ st dn v, f = .cmd st dn v ∧ st.isDigits = true)
    ∨ (∃ st, f = .ackFrame .ack st ∧ st.isDigits = true)
    ∨ (b = NAK ∧ ∃ st, f = .ackFrame .nak st ∧ st.isDigits = true) := by
  simp only [decodeFrame] at h
  split_ifs at h with _ _ hnak
  · exact .inl (decodeCmd_ok h)
  · exact .inr (.inl (decodeAck_ok h))
  · exact .inr (.inr ⟨eq_of_beq hnak, decodeAck_ok h⟩)

theorem startLen_pos {c : Config} {b : Byte} {n : Nat} (h : startLen c b = some n) : 0 < n := by
  unfold startLen at h
  split_ifs at h <;> cases h <;> decide

/-- A NAK is a start byte only with `SCAN_NAK` (43_link_scanner.md R190). -/
theorem startLen_nak {c : Config} {n : Nat} (h : startLen c NAK = some n) : c.scanNak = true := by
  simpa [startLen, ENQ, ACK, NAK] using Option.isSome_of_eq_some h

/-- `S-EMIT` applies over a link, with room in `fq`, to bytes that begin with a start byte and decode to the frame
(43_link_scanner.md R193). -/
theorem verdict_emit {f : Frame} {n : Nat} (h : verdict s = .emit f n) :
    linkUp s = true ∧ fqFull s = false ∧ ∃ b B, startLen s.cfg b = some n ∧ decodeFrame (b :: B) = .ok f := by
  unfold verdict at h
  split at h
  next hup =>
    split at h
    · cases h
    next b r hbuf =>
      split at h
      · cases h
      next m hlen =>
        split at h
        · cases h
        split at h
        · cases h
        next g hdec =>
          split at h
          · cases h
          next hroom =>
            cases h
            obtain ⟨k, rfl⟩ := Nat.exists_eq_add_one.mpr (startLen_pos hlen)
            exact ⟨hup, by simpa using hroom, b, r.take k, hlen, by simpa [memRead, hbuf] using hdec⟩
  next => cases h

theorem inv_sEmit (hs : Inv s) : Inv (sEmit s) := by
  unfold sEmit
  split
  next f n hv =>
    obtain ⟨hup, hroom, b, B, hlen, hdec⟩ := verdict_emit hv
    have hpush : Inv (fqPush f s) := by
      rcases decodeFrame_ok hdec with ⟨st, dn, v, rfl, hst⟩ | ⟨st, rfl, hst⟩ | ⟨rfl, st, rfl, hst⟩
      · exact inv_fqPush hs hup hroom hst fun _ hf => nomatch hf
      · exact inv_fqPush hs hup hroom hst fun _ hf => nomatch hf
      · exact inv_fqPush hs hup hroom hst fun _ _ => startLen_nak hlen
    exact inv_bufDrop (inv_emit hpush _) n
  next => exact hs

theorem inv_sSkip (hs : Inv s) : Inv (sSkip s) := by
  unfold sSkip
  split
  · exact inv_bufDrop (inv_raise hs _) 1
  · exact hs

theorem inv_sReject (hs : Inv s) : Inv (sReject s) := by
  unfold sReject
  split
  · exact inv_bufDrop (inv_raise hs _) 1
  · exact hs

/-! ## Every step -/

theorem inv_perform (a : Action) (hs : Inv s) : AllNext Inv (perform a s) := by
  cases a with
  | tick => exact allNext_next (inv_tick hs)
  | rxChar b perr ferr => exact allNext_next (inv_rxChar hs b _ ferr)
  | rxBits bits => exact allNext_next (inv_rxBits hs bits)
  | devOpenOk => exact allNext_next (inv_devOpenOk hs)
  | devOpenFail => exact allNext_next (inv_devOpenFail hs)
  | devError => exact allNext_next (inv_devError hs)
  | host w => exact inv_hostOp hs w
  | rst => exact allNext_next (inv_rst hs)
  | lOpen => exact allNext_next (inv_lOpen hs)
  | lIdle => exact allNext_next (inv_lIdle hs)
  | sSkip => exact allNext_next (inv_sSkip hs)
  | sEmit => exact allNext_next (inv_sEmit hs)
  | sReject => exact allNext_next (inv_sReject hs)
  | xFrame => exact inv_xFrame hs
  | xTimeout => exact allNext_next (inv_xTimeout hs)
  | txByte => exact allNext_next (inv_txByte hs)

end

/-- Settles O54: a step is one agent's, taken on the state that `beginStep` leaves. -/
theorem stepKeepsTheInvariant : Obligations.StepKeepsTheInvariant :=
  fun s t hs hstep => inv_perform (nextAction s) (inv_beginStep hs) t hstep

end Sys2Proof.Machine
end

section
/-! Who writes the configuration and the time (10_state.md R22, R38). -/

namespace Sys2Proof.Machine

/-- The configuration and the time, which no operation writes but `Tick` and reset. -/
def clockOf (s : State) : Config × W32 := (s.cfg, s.now)

section
variable (s : State)

/-! ## The shared operations -/

@[simp] theorem clockOf_emit (e : Event) : clockOf (emit e s) = clockOf s := rfl
@[simp] theorem clockOf_raise (e : Error) : clockOf (raise e s) = clockOf s := rfl
@[simp] theorem clockOf_accept : clockOf (accept s) = clockOf s := rfl
@[simp] theorem clockOf_pulse (p : DevPulse) : clockOf (pulse p s) = clockOf s := rfl
@[simp] theorem clockOf_bufAppend (b : Byte) : clockOf (bufAppend b s) = clockOf s := rfl
@[simp] theorem clockOf_setTarget (t : Option W16) : clockOf (setTarget t s) = clockOf s := rfl
@[simp] theorem clockOf_clearFailures : clockOf (clearFailures s) = clockOf s := rfl
@[simp] theorem clockOf_degrade : clockOf (degrade s) = clockOf s := rfl

@[simp] theorem clockOf_send (B : List Byte) : clockOf (send B s) = clockOf s :=
  Prod.ext (send_cfg B s) (send_now B s)

@[simp] theorem clockOf_dedupUpdate (dn v : W16) : clockOf (dedupUpdate dn v s) = clockOf s :=
  Prod.ext (dedupUpdate_cfg dn v s) (dedupUpdate_now dn v s)

@[simp] theorem clockOf_setSess (new : SessState) : clockOf (setSess new s) = clockOf s :=
  Prod.ext (setSess_cfg new s) (setSess_now new s)

@[simp] theorem clockOf_sendAck : clockOf (sendAck s) = clockOf s := by simp [sendAck]

/-! ## The effects of the frames -/

theorem clockOf_onCommand {body : State → State} (hbody : ∀ u, clockOf (body u) = clockOf u) (st : Station)
    (dn v : W16) : clockOf (onCommand st dn v body s) = clockOf s := by
  rcases onCommand_cases st dn v body s with ⟨_, he⟩ | ⟨_, _, he⟩ | ⟨_, _, he⟩ <;> simp [he, hbody]

theorem clockOf_ifConsumed {body : State → State} (hbody : ∀ u, clockOf (body u) = clockOf u) (dn v : W16) :
    clockOf (ifConsumed dn v body s) = clockOf s := by
  rcases ifConsumed_cases dn v body s with ⟨_, he⟩ | ⟨_, he⟩ <;> simp [he, hbody]

theorem clockOf_currentFloorReport (v : W16) : clockOf (currentFloorReport v s) = clockOf s := by
  simp only [currentFloorReport]
  split <;> rfl

theorem clockOf_loadReport (v : W16) : clockOf (loadReport v s) = clockOf s := by
  simp only [loadReport]
  split <;> rfl

theorem clockOf_targetFloorReport (v : W16) : clockOf (targetFloorReport v s) = clockOf s := by
  unfold targetFloorReport
  split
  · split <;> rfl
  split
  · rfl
  · rw [clockOf_setTarget]
    split <;> rfl

theorem clockOf_doorCommand (dn v : W16) : clockOf (doorCommand dn v s) = clockOf s := by
  unfold doorCommand
  split
  · dsimp only
    split <;> rfl
  · rfl

theorem clockOf_ackEffect (st : Station) : clockOf (ackEffect st s) = clockOf s := by
  unfold ackEffect
  split <;> rfl

@[simp] theorem clockOf_advance (old new : SessState) : clockOf (advance old new s) = clockOf s := by
  unfold advance
  split
  · exact clockOf_setSess s new
  · rfl

theorem clockOf_handshakeRequest (req rsp v : W16) (old new : SessState) :
    clockOf (handshakeRequest req rsp v old new s) = clockOf s := by
  simp [handshakeRequest, sendResponse]

theorem clockOf_handshakeResponse (dn : W16) (old new : SessState) :
    clockOf (handshakeResponse dn old new s) = clockOf s := by
  rw [handshakeResponse, clockOf_advance]
  split <;> rfl

/-- A frame whose effect writes neither is executed, or waits, without either being written. -/
theorem clockOf_onFrame {body : State → State} (hbody : ∀ u, clockOf (body u) = clockOf u) :
    AllNext (fun t => clockOf t = clockOf s) (onFrame body s) :=
  allNext_onFrame rfl fun _ => hbody (fqPop s)

theorem clockOf_command {body : State → State} (hbody : ∀ u, clockOf (body u) = clockOf u) (st : Station)
    (dn v : W16) : AllNext (fun t => clockOf t = clockOf s) (onFrame (onCommand st dn v body) s) :=
  clockOf_onFrame s fun u => clockOf_onCommand u hbody st dn v

theorem clockOf_consumedCommand {body : State → State} (hbody : ∀ u, clockOf (body u) = clockOf u) (st : Station)
    (dn v : W16) : AllNext (fun t => clockOf t = clockOf s) (onFrame (onCommand st dn v (ifConsumed dn v body)) s) :=
  clockOf_command s (fun u => clockOf_ifConsumed u hbody dn v) st dn v

/-! ## The host operations -/

theorem clockOf_stopNotice : clockOf (stopNotice s) = clockOf s := by
  unfold stopNotice
  split <;> rfl

theorem clockOf_closeDevice : clockOf (closeDevice s) = clockOf s := by
  unfold closeDevice
  split <;> rfl

/-- `STOP` gives every register its reset value but `now` (46_session_tx.md R263). -/
theorem clockOf_sessionStop : clockOf (sessionStop s) = clockOf s := rfl

theorem clockOf_execStart : AllNext (fun t => clockOf t = clockOf s) (execStart s) := by
  unfold execStart
  split <;> exact allNext_next rfl

theorem clockOf_execIssue (dn v : W16) : AllNext (fun t => clockOf t = clockOf s) (execIssue dn v s) := by
  unfold execIssue
  split
  · exact allNext_next rfl
  split
  · exact allNext_next rfl
  split
  · exact allNext_next rfl
  · exact allNext_next (clockOf_send s (encodeCmd s.cfg.peerId dn v))

theorem clockOf_execStop : AllNext (fun t => clockOf t = clockOf s) (execStop s) :=
  allNext_next (by simp [clockOf_sessionStop, clockOf_closeDevice, clockOf_stopNotice])

/-! ## Every instruction -/

theorem clockOf_exec (i : Instr) : AllNext (fun t => clockOf t = clockOf s) (exec i s) := by
  cases i with
  | curFloor st v => exact clockOf_consumedCommand s (clockOf_currentFloorReport · v) st _ v
  | tgtFloor st v => exact clockOf_consumedCommand s (clockOf_targetFloorReport · v) st _ v
  | tgtNone st => exact clockOf_consumedCommand s (clockOf_targetFloorReport · _) st _ _
  | load st v => exact clockOf_consumedCommand s (clockOf_loadReport · v) st _ v
  | floorSet st v => exact clockOf_consumedCommand s (clockOf_emit · _) st _ v
  | doorCtl st v => exact clockOf_consumedCommand s (clockOf_doorCommand · _ v) st _ v
  | doorStop st => exact clockOf_consumedCommand s (clockOf_doorCommand · _ _) st _ _
  | doorOpen st => exact clockOf_consumedCommand s (clockOf_doorCommand · _ _) st _ _
  | doorClose st => exact clockOf_consumedCommand s (clockOf_doorCommand · _ _) st _ _
  | floorCmd st v => exact clockOf_consumedCommand s (clockOf_emit · _) st _ v
  | doorCmd st v => exact clockOf_consumedCommand s (clockOf_doorCommand · _ v) st _ v
  | unknownDn st dn v => exact clockOf_command s (clockOf_emit · _) st dn v
  | ping st v => exact clockOf_command s (clockOf_handshakeRequest · _ _ v _ _) st _ v
  | statusReq st v => exact clockOf_command s (clockOf_handshakeRequest · _ _ v _ _) st _ v
  | controlReq st v => exact clockOf_command s (clockOf_handshakeRequest · _ _ v _ _) st _ v
  | pong st v => exact clockOf_command s (clockOf_handshakeResponse · _ _ _) st _ v
  | statusRsp st v => exact clockOf_command s (clockOf_handshakeResponse · _ _ _) st _ v
  | controlAck st v => exact clockOf_command s (clockOf_handshakeResponse · _ _ _) st _ v
  | ack st => exact clockOf_onFrame s (clockOf_ackEffect · st)
  | nak st => exact clockOf_onFrame s (clockOf_emit · _)
  | nop => exact allNext_next rfl
  | start => exact clockOf_execStart s
  | stop => exact clockOf_execStop s
  | issue dn v => exact clockOf_execIssue s dn v
  | snapshot => exact allNext_next rfl

theorem clockOf_xFrame : AllNext (fun t => clockOf t = clockOf s) (xFrame s) := by
  unfold xFrame
  split
  · exact allNext_next rfl
  · exact clockOf_exec s _

theorem clockOf_hostOp (w : BitVec 36) : AllNext (fun t => clockOf t = clockOf s) (hostOp w s) := by
  unfold hostOp
  split
  · exact clockOf_exec s _
  · exact allNext_next rfl

/-! ## The link, the scanner, the transmitter, the timer -/

@[simp] theorem clockOf_quieten : clockOf (quieten s) = clockOf s := by
  simp [clockOf, quieten]

@[simp] theorem clockOf_linkDown (cause : LinkCause) : clockOf (linkDown cause s) = clockOf s := by
  rw [linkDown_eq]
  exact clockOf_quieten (pulse .close (emit (.linkDown cause) s))

@[simp] theorem clockOf_softFail : clockOf (softFail s) = clockOf s := by
  unfold softFail
  split <;> simp

/-- The time of a character is a copy of `now` and not a write of it (43_link_scanner.md R183). -/
theorem clockOf_rxChar (b : Byte) (perr ferr : Bool) : clockOf (rxChar b perr ferr s) = clockOf s := by
  have hheard : clockOf { s with lastRxTime := s.now } = clockOf s := rfl
  unfold rxChar
  split
  · dsimp only
    split
    · simp [hheard]
    split
    · simp [hheard]
    · simp [hheard]
  · rfl

theorem clockOf_rxBits (bits : List Bool) : clockOf (rxBits bits s) = clockOf s := by
  unfold rxBits
  split
  · rfl
  · exact clockOf_rxChar s _ _ _

theorem clockOf_lOpen : clockOf (lOpen s) = clockOf s := by
  unfold lOpen
  split <;> rfl

theorem clockOf_devOpenOk : clockOf (devOpenOk s) = clockOf s := by
  unfold devOpenOk
  split <;> rfl

theorem clockOf_devOpenFail : clockOf (devOpenFail s) = clockOf s := by
  unfold devOpenFail
  split
  · dsimp only
    split <;> rfl
  · rfl

theorem clockOf_devError : clockOf (devError s) = clockOf s := by
  unfold devError
  split
  · simp
  split
  · exact clockOf_devOpenFail s
  · rfl

theorem clockOf_lIdle : clockOf (lIdle s) = clockOf s := by
  unfold lIdle
  split <;> simp

theorem clockOf_sSkip : clockOf (sSkip s) = clockOf s := by
  unfold sSkip
  split <;> rfl

theorem clockOf_sEmit : clockOf (sEmit s) = clockOf s := by
  unfold sEmit
  split <;> rfl

theorem clockOf_sReject : clockOf (sReject s) = clockOf s := by
  unfold sReject
  split <;> rfl

theorem clockOf_xTimeout : clockOf (xTimeout s) = clockOf s := by
  unfold xTimeout
  split
  · dsimp only
    split
    · exact clockOf_send (raise (.ackTimeout s.pendDn s.retryCnt) s) (encodeCmd s.cfg.peerId s.pendDn s.pendValue)
    · rfl
  · rfl

theorem clockOf_txByte : clockOf (txByte s) = clockOf s := by
  unfold txByte
  split
  · split
    · rfl
    split
    · rfl
    dsimp only
    split <;> rfl
  · rfl

/-! ## Every step -/

theorem clockOf_perform {a : Action} (htick : a ≠ .tick) (hrst : a ≠ .rst) :
    AllNext (fun t => clockOf t = clockOf s) (perform a s) := by
  cases a with
  | tick => exact absurd rfl htick
  | rst => exact absurd rfl hrst
  | rxChar b perr ferr => exact allNext_next (clockOf_rxChar s b _ ferr)
  | rxBits bits => exact allNext_next (clockOf_rxBits s bits)
  | devOpenOk => exact allNext_next (clockOf_devOpenOk s)
  | devOpenFail => exact allNext_next (clockOf_devOpenFail s)
  | devError => exact allNext_next (clockOf_devError s)
  | host w => exact clockOf_hostOp s w
  | lOpen => exact allNext_next (clockOf_lOpen s)
  | lIdle => exact allNext_next (clockOf_lIdle s)
  | sSkip => exact allNext_next (clockOf_sSkip s)
  | sEmit => exact allNext_next (clockOf_sEmit s)
  | sReject => exact allNext_next (clockOf_sReject s)
  | xFrame => exact clockOf_xFrame s
  | xTimeout => exact allNext_next (clockOf_xTimeout s)
  | txByte => exact allNext_next (clockOf_txByte s)

/-- No step writes the configuration: `Tick` writes `now` alone, and reset keeps the record (10_state.md R38). -/
theorem cfg_perform (a : Action) : AllNext (fun t => t.cfg = s.cfg) (perform a s) := by
  by_cases htick : a = .tick
  · subst htick
    exact allNext_next rfl
  by_cases hrst : a = .rst
  · subst hrst
    exact allNext_next rfl
  · exact fun t ht => congrArg Prod.fst (clockOf_perform s htick hrst t ht)

end

/-- Settles O58: `Tick` by its definition, every other action by the frame lemma `clockOf_perform`. -/
theorem timeAndConfigurationWriters : Obligations.TimeAndConfigurationWriters := by
  intro s t hstep
  refine ⟨cfg_perform (beginStep s) (nextAction s) t hstep, fun htick => ?_, fun htick hrst => ?_⟩
  · have ht : t = { beginStep s with now := s.now + 1 } := by
      rw [step, htick] at hstep
      cases hstep
      rfl
    exact ⟨ht, by rw [ht]; exact BitVec.toNat_add s.now 1⟩
  · exact congrArg Prod.snd (clockOf_perform (beginStep s) htick hrst t hstep)

end Sys2Proof.Machine
end

section
/-! The order of the bytes on the line (20_memory.md R77, 42_serial_phy.md R152). -/

namespace Sys2Proof.Machine

section
variable {s : State} {F : List Byte} {r : List (List Byte)}

/-- What is unsent is the rest of the head frame, then the frames behind it. -/
theorem unsentBytes_of_head {n : Nat} (htxq : s.txq = F :: r) (hn : s.txIdx.toNat = n) (hle : n ≤ F.length) :
    unsentBytes s = F.drop n ++ r.flatten := by
  rw [unsentBytes, htxq, hn, List.flatten_cons, List.drop_append_of_le_length hle]

/-- The transmitter's index never points behind what is queued: it is 0 or inside the head frame. -/
theorem txIdx_le_queued (hs : Inv s) : s.txIdx.toNat ≤ s.txq.flatten.length := by
  rcases hs.txIdxHead with hzero | ⟨F, r, htxq, hidx⟩
  · simp [hzero]
  · simp only [htxq, List.flatten_cons, List.length_append]
    omega

/-- With a frame queued the transmitter's index is inside the head frame, which has at most the 16 bytes that the four
bits of `tx_idx` count. -/
theorem txIdx_lt_head (hs : Inv s) (htxq : s.txq = F :: r) : s.txIdx.toNat < F.length ∧ F.length ≤ 16 := by
  have hlen : F.length = 5 ∨ F.length = 16 := hs.txqFrames F (by simp [htxq])
  refine ⟨?_, by omega⟩
  rcases hs.txIdxHead with hzero | ⟨G, q, hhead, hidx⟩
  · have hfirst : s.txIdx.toNat = 0 := congrArg BitVec.toNat hzero
    omega
  · obtain ⟨rfl, rfl⟩ := List.cons_eq_cons.mp (hhead.symm.trans htxq)
    exact hidx

/-- `TxByte` with a byte of the head frame to send (42_serial_phy.md R152). -/
theorem txByte_of_head (hup : linkUp s = true) (htxq : s.txq = F :: r) (hidx : s.txIdx.toNat < F.length) :
    txByte s =
      if s.txIdx.toNat + 1 = F.length then
        { s with lineOut := s.lineOut ++ [F[s.txIdx.toNat]], txq := r, txIdx := 0, txActive := false }
      else { s with lineOut := s.lineOut ++ [F[s.txIdx.toNat]], txIdx := s.txIdx + 1, txActive := true } := by
  simp [txByte, hup, htxq, hidx]

/-- The byte that `TxByte` puts on the line is the first of the unsent ones, and the others stay unsent in their order. -/
theorem txByte_sends_first_unsent (hs : Inv s) (hup : linkUp s = true) (hne : s.txq ≠ []) :
    ∃ b, (txByte s).lineOut = s.lineOut ++ [b] ∧ unsentBytes s = b :: unsentBytes (txByte s) := by
  obtain ⟨F, r, htxq⟩ := List.exists_cons_of_ne_nil hne
  obtain ⟨hidx, hlen⟩ := txIdx_lt_head hs htxq
  have hsplit : unsentBytes s = F[s.txIdx.toNat] :: (F.drop (s.txIdx.toNat + 1) ++ r.flatten) := by
    rw [unsentBytes_of_head htxq rfl hidx.le, List.drop_eq_getElem_cons hidx, List.cons_append]
  refine ⟨F[s.txIdx.toNat], ?_⟩
  rw [hsplit, txByte_of_head hup htxq hidx]
  split
  next hlast => simp [unsentBytes, hlast]
  next hmore =>
    have hsucc : (s.txIdx + 1).toNat = s.txIdx.toNat + 1 := BitVec.toNat_add_of_lt (y := 1) (by simp; omega)
    refine ⟨rfl, congrArg _ (Eq.symm ?_)⟩
    exact unsentBytes_of_head htxq hsucc hidx

/-- `SEND` over a link queues its frame behind every unsent byte (20_memory.md R68, R77). -/
theorem unsentBytes_send (hs : Inv s) (hup : linkUp s = true) (B : List Byte) :
    unsentBytes (send B s) = unsentBytes s ++ B := by
  have hflat : (s.txq ++ [B]).flatten = s.txq.flatten ++ B := by simp
  rw [send_up hup, unsentBytes, txPush_txq, txPush_txIdx, hflat, List.drop_append_of_le_length (txIdx_le_queued hs),
    unsentBytes]

end

/-- Settles O47: one `TxByte` step by the byte it moves, `SEND` by where it queues its frame. -/
theorem lineCarriesFramesInSendOrder : Obligations.LineCarriesFramesInSendOrder := by
  refine ⟨fun s t r hs hup hne hsched hstep => ?_, fun s B hs hup => unsentBytes_send hs hup B⟩
  obtain ⟨b, hline, hunsent⟩ := txByte_sends_first_unsent (inv_beginStep hs) hup hne
  have ht : t = txByte (beginStep s) := by
    rw [step_of_sched hsched] at hstep
    cases hstep
    rfl
  have hqueued : unsentBytes s = b :: unsentBytes t := ht ▸ hunsent
  have hsent : t.lineOut = s.lineOut ++ [b] := ht ▸ hline
  constructor <;> simp [hqueued, hsent]

end Sys2Proof.Machine
end

section
/-! Who writes ElevatorStatus and `link_state` (10_state.md R23, R33, 20_memory.md R78). -/

namespace Sys2Proof.Machine

/-! ## Which instructions come from the line and which from the host -/

/-- A frame is never a host operation (30_encoding.md R110). -/
theorem classifyCmd_isHostOp (c : Config) (st : Station) (dn v : W16) : (classifyCmd c st dn v).isHostOp = false := by
  simp only [classifyCmd, apply_ite Instr.isHostOp]
  simp only [Instr.isHostOp, ite_self]

theorem classify_isHostOp (c : Config) (f : Frame) : (classify c f).isHostOp = false := by
  cases f with
  | cmd st dn v => exact classifyCmd_isHostOp c st dn v
  | ackFrame k st => cases k <;> rfl

/-- A host word is never a frame (30_encoding.md R110). -/
theorem decodeHop_isHostOp {w : BitVec 36} {i : Instr} (h : decodeHop w = .ok i) : i.isHostOp = true := by
  unfold decodeHop at h
  dsimp only at h
  split_ifs at h <;> cases h <;> rfl

/-- What neither the execution of a frame nor the exchange may write, with the registers of the session blanked:
ElevatorStatus, the command slot, `sess_state`, `dedup`, `fq`, `txq`, the trace and the host port's answer (20_memory.md
R78). Two states that agree on it agree on the link, the scanner's position, the transmitter and the line. -/
def outsideSession (s : State) : State :=
  { s with
    currentFloor := 0, targetFloor := none, loadWeight := 0, moving := false, doorStatus := 0
    pendValid := false, pendDn := 0, pendValue := 0, retryCnt := 0, ackT0 := 0
    sessState := .idle, dedup := [], fq := [], txq := [], events := [], hostReply := none }

theorem linkState_of_outsideSession {s t : State} (h : outsideSession t = outsideSession s) :
    t.linkState = s.linkState :=
  (congrArg State.linkState h :)

section
variable (s : State)

/-! ## The session's registers: the shared operations -/

@[simp] theorem outsideSession_emit (e : Event) : outsideSession (emit e s) = outsideSession s := rfl
@[simp] theorem outsideSession_setTarget (t : Option W16) : outsideSession (setTarget t s) = outsideSession s := rfl

@[simp] theorem outsideSession_send (B : List Byte) : outsideSession (send B s) = outsideSession s := by
  unfold send
  split <;> rfl

@[simp] theorem outsideSession_dedupUpdate (dn v : W16) :
    outsideSession (dedupUpdate dn v s) = outsideSession s := by
  unfold dedupUpdate
  split <;> rfl

@[simp] theorem outsideSession_sendAck : outsideSession (sendAck s) = outsideSession s := by simp [sendAck]

@[simp] theorem outsideSession_advance (old new : SessState) :
    outsideSession (advance old new s) = outsideSession s := by
  unfold advance setSess
  split
  · split <;> rfl
  · rfl

/-! ## The session's registers: the effects of the frames -/

theorem outsideSession_currentFloorReport (v : W16) : outsideSession (currentFloorReport v s) = outsideSession s := by
  simp only [currentFloorReport]
  split <;> rfl

theorem outsideSession_loadReport (v : W16) : outsideSession (loadReport v s) = outsideSession s := by
  simp only [loadReport]
  split <;> rfl

theorem outsideSession_targetFloorReport (v : W16) : outsideSession (targetFloorReport v s) = outsideSession s := by
  unfold targetFloorReport
  split
  · split <;> rfl
  split
  · rfl
  · rw [outsideSession_setTarget]
    split <;> rfl

theorem outsideSession_doorCommand (dn v : W16) : outsideSession (doorCommand dn v s) = outsideSession s := by
  unfold doorCommand
  split
  · dsimp only
    split <;> rfl
  · rfl

theorem outsideSession_ackEffect (st : Station) : outsideSession (ackEffect st s) = outsideSession s := by
  unfold ackEffect
  split <;> rfl

theorem outsideSession_handshakeRequest (req rsp v : W16) (old new : SessState) :
    outsideSession (handshakeRequest req rsp v old new s) = outsideSession s := by
  simp [handshakeRequest, sendResponse]

theorem outsideSession_handshakeResponse (dn : W16) (old new : SessState) :
    outsideSession (handshakeResponse dn old new s) = outsideSession s := by
  rw [handshakeResponse, outsideSession_advance]
  split <;> rfl

theorem outsideSession_onFrame {body : State → State} (hbody : ∀ u, outsideSession (body u) = outsideSession u) :
    AllNext (fun t => outsideSession t = outsideSession s) (onFrame body s) :=
  allNext_onFrame rfl fun _ => hbody (fqPop s)

theorem outsideSession_command {body : State → State} (hbody : ∀ u, outsideSession (body u) = outsideSession u)
    (st : Station) (dn v : W16) :
    AllNext (fun t => outsideSession t = outsideSession s) (onFrame (onCommand st dn v body) s) := by
  refine outsideSession_onFrame s fun u => ?_
  rcases onCommand_cases st dn v body u with ⟨_, he⟩ | ⟨_, _, he⟩ | ⟨_, _, he⟩ <;> simp [he, hbody]

theorem outsideSession_consumedCommand {body : State → State}
    (hbody : ∀ u, outsideSession (body u) = outsideSession u) (st : Station) (dn v : W16) :
    AllNext (fun t => outsideSession t = outsideSession s) (onFrame (onCommand st dn v (ifConsumed dn v body)) s) := by
  refine outsideSession_command s (fun u => ?_) st dn v
  rcases ifConsumed_cases dn v body u with ⟨_, he⟩ | ⟨_, he⟩ <;> simp [he, hbody]

/-! ## The session's registers: every instruction but `START` and `STOP`, and the exchange's timer -/

theorem outsideSession_execIssue (dn v : W16) :
    AllNext (fun t => outsideSession t = outsideSession s) (execIssue dn v s) := by
  unfold execIssue
  split
  · exact allNext_next rfl
  split
  · exact allNext_next rfl
  split
  · exact allNext_next rfl
  · exact allNext_next (outsideSession_send s (encodeCmd s.cfg.peerId dn v))

theorem outsideSession_exec {i : Instr} (hstart : i ≠ .start) (hstop : i ≠ .stop) :
    AllNext (fun t => outsideSession t = outsideSession s) (exec i s) := by
  cases i with
  | curFloor st v => exact outsideSession_consumedCommand s (outsideSession_currentFloorReport · v) st _ v
  | tgtFloor st v => exact outsideSession_consumedCommand s (outsideSession_targetFloorReport · v) st _ v
  | tgtNone st => exact outsideSession_consumedCommand s (outsideSession_targetFloorReport · _) st _ _
  | load st v => exact outsideSession_consumedCommand s (outsideSession_loadReport · v) st _ v
  | floorSet st v => exact outsideSession_consumedCommand s (outsideSession_emit · _) st _ v
  | doorCtl st v => exact outsideSession_consumedCommand s (outsideSession_doorCommand · _ v) st _ v
  | doorStop st => exact outsideSession_consumedCommand s (outsideSession_doorCommand · _ _) st _ _
  | doorOpen st => exact outsideSession_consumedCommand s (outsideSession_doorCommand · _ _) st _ _
  | doorClose st => exact outsideSession_consumedCommand s (outsideSession_doorCommand · _ _) st _ _
  | floorCmd st v => exact outsideSession_consumedCommand s (outsideSession_emit · _) st _ v
  | doorCmd st v => exact outsideSession_consumedCommand s (outsideSession_doorCommand · _ v) st _ v
  | unknownDn st dn v => exact outsideSession_command s (outsideSession_emit · _) st dn v
  | ping st v => exact outsideSession_command s (outsideSession_handshakeRequest · _ _ v _ _) st _ v
  | statusReq st v => exact outsideSession_command s (outsideSession_handshakeRequest · _ _ v _ _) st _ v
  | controlReq st v => exact outsideSession_command s (outsideSession_handshakeRequest · _ _ v _ _) st _ v
  | pong st v => exact outsideSession_command s (outsideSession_handshakeResponse · _ _ _) st _ v
  | statusRsp st v => exact outsideSession_command s (outsideSession_handshakeResponse · _ _ _) st _ v
  | controlAck st v => exact outsideSession_command s (outsideSession_handshakeResponse · _ _ _) st _ v
  | ack st => exact outsideSession_onFrame s (outsideSession_ackEffect · st)
  | nak st => exact outsideSession_onFrame s (outsideSession_emit · _)
  | nop => exact allNext_next rfl
  | start => exact absurd rfl hstart
  | stop => exact absurd rfl hstop
  | issue dn v => exact outsideSession_execIssue s dn v
  | snapshot => exact allNext_next rfl

theorem outsideSession_xFrame : AllNext (fun t => outsideSession t = outsideSession s) (xFrame s) := by
  unfold xFrame
  split
  · exact allNext_next rfl
  next f _ _ =>
    have hframe := classify_isHostOp s.cfg f
    exact outsideSession_exec s (fun hstart => nomatch hstart ▸ hframe) fun hstop => nomatch hstop ▸ hframe

theorem outsideSession_xTimeout : outsideSession (xTimeout s) = outsideSession s := by
  unfold xTimeout
  split
  · dsimp only
    split
    · exact outsideSession_send (raise _ s) (encodeCmd s.cfg.peerId s.pendDn s.pendValue)
    · rfl
  · rfl

/-! ## `link_state`: every step that is not an owner -/

/-- `START` leaves the link as it is: it enables the supervisor, whose `L-OPEN` opens the device (46_session_tx.md
R262). -/
theorem linkState_execStart : AllNext (fun t => t.linkState = s.linkState) (execStart s) := by
  unfold execStart
  split <;> exact allNext_next rfl

/-- Of the host operations `STOP` alone writes `link_state`. -/
theorem linkState_hostOp {w : BitVec 36} (hstop : decodeHop w ≠ .ok .stop) :
    AllNext (fun t => t.linkState = s.linkState) (hostOp w s) := by
  unfold hostOp
  split
  next i hi =>
    by_cases hstart : i = .start
    · exact hstart ▸ linkState_execStart s
    · have hkept := outsideSession_exec s hstart fun his => hstop (his ▸ hi)
      exact fun t ht => linkState_of_outsideSession (hkept t ht)
  next => exact allNext_next rfl

theorem linkState_xFrame : AllNext (fun t => t.linkState = s.linkState) (xFrame s) :=
  fun t ht => linkState_of_outsideSession (outsideSession_xFrame s t ht)

theorem linkState_xTimeout : (xTimeout s).linkState = s.linkState :=
  linkState_of_outsideSession (outsideSession_xTimeout s)

theorem linkState_txByte : (txByte s).linkState = s.linkState := by
  unfold txByte
  split
  · split
    · rfl
    split
    · rfl
    dsimp only
    split <;> rfl
  · rfl

/-! ## ElevatorStatus: the shared operations -/

@[simp] theorem elevatorStatus_raise (e : Error) : elevatorStatus (raise e s) = elevatorStatus s := rfl
@[simp] theorem elevatorStatus_degrade : elevatorStatus (degrade s) = elevatorStatus s := rfl

@[simp] theorem elevatorStatus_send (B : List Byte) : elevatorStatus (send B s) = elevatorStatus s := by
  simp [elevatorStatus]

/-- A lost link leaves the status registers with their last values (43_link_scanner.md R182). -/
@[simp] theorem elevatorStatus_linkDown (cause : LinkCause) : elevatorStatus (linkDown cause s) = elevatorStatus s := by
  simp [elevatorStatus, linkDown]

@[simp] theorem elevatorStatus_softFail : elevatorStatus (softFail s) = elevatorStatus s := by
  unfold softFail
  split <;> simp

/-! ## ElevatorStatus: every instruction and step that is not an owner -/

theorem elevatorStatus_execIssue (dn v : W16) :
    AllNext (fun t => elevatorStatus t = elevatorStatus s) (execIssue dn v s) := by
  unfold execIssue
  split
  · exact allNext_next rfl
  split
  · exact allNext_next rfl
  split
  · exact allNext_next rfl
  · exact allNext_next (elevatorStatus_send s (encodeCmd s.cfg.peerId dn v))

/-- Of the host operations only `START` and `STOP` write the status. -/
theorem elevatorStatus_hostOp {w : BitVec 36} (hstart : decodeHop w ≠ .ok .start) (hstop : decodeHop w ≠ .ok .stop) :
    AllNext (fun t => elevatorStatus t = elevatorStatus s) (hostOp w s) := by
  unfold hostOp
  split
  next i hi =>
    have hop := decodeHop_isHostOp hi
    cases i with
    | start => exact absurd hi hstart
    | stop => exact absurd hi hstop
    | nop => exact allNext_next rfl
    | issue dn v => exact elevatorStatus_execIssue s dn v
    | snapshot => exact allNext_next rfl
    | _ => cases hop
  next => exact allNext_next rfl

theorem elevatorStatus_rxChar (b : Byte) (perr ferr : Bool) :
    elevatorStatus (rxChar b perr ferr s) = elevatorStatus s := by
  unfold rxChar
  split
  · dsimp only
    split
    · exact elevatorStatus_softFail _
    split
    · exact elevatorStatus_softFail _
    · rfl
  · rfl

theorem elevatorStatus_rxBits (bits : List Bool) : elevatorStatus (rxBits bits s) = elevatorStatus s := by
  unfold rxBits
  split
  · rfl
  · exact elevatorStatus_rxChar s _ _ _

theorem elevatorStatus_lOpen : elevatorStatus (lOpen s) = elevatorStatus s := by
  unfold lOpen
  split <;> rfl

theorem elevatorStatus_devOpenOk : elevatorStatus (devOpenOk s) = elevatorStatus s := by
  unfold devOpenOk
  split <;> rfl

theorem elevatorStatus_devOpenFail : elevatorStatus (devOpenFail s) = elevatorStatus s := by
  unfold devOpenFail
  split
  · dsimp only
    split <;> rfl
  · rfl

theorem elevatorStatus_devError : elevatorStatus (devError s) = elevatorStatus s := by
  unfold devError
  split
  · exact elevatorStatus_linkDown _ _
  split
  · exact elevatorStatus_devOpenFail s
  · rfl

theorem elevatorStatus_lIdle : elevatorStatus (lIdle s) = elevatorStatus s := by
  unfold lIdle
  split
  · exact elevatorStatus_linkDown _ _
  · rfl

theorem elevatorStatus_sSkip : elevatorStatus (sSkip s) = elevatorStatus s := by
  unfold sSkip
  split <;> rfl

theorem elevatorStatus_sEmit : elevatorStatus (sEmit s) = elevatorStatus s := by
  unfold sEmit
  split <;> rfl

theorem elevatorStatus_sReject : elevatorStatus (sReject s) = elevatorStatus s := by
  unfold sReject
  split <;> rfl

theorem elevatorStatus_xTimeout : elevatorStatus (xTimeout s) = elevatorStatus s := by
  unfold xTimeout
  split
  · dsimp only
    split
    · exact elevatorStatus_send _ _
    · rfl
  · rfl

theorem elevatorStatus_txByte : elevatorStatus (txByte s) = elevatorStatus s := by
  unfold txByte
  split
  · split
    · rfl
    split
    · rfl
    dsimp only
    split <;> rfl
  · rfl

/-! ## The owners -/

/-- The steps that write ElevatorStatus (20_memory.md R78). -/
def Action.OwnsStatus (a : Action) : Prop :=
  a = .xFrame ∨ a = .rst ∨ ∃ w, a = .host w ∧ (decodeHop w = .ok .start ∨ decodeHop w = .ok .stop)

theorem elevatorStatus_perform {a : Action} (ha : ¬ a.OwnsStatus) :
    AllNext (fun t => elevatorStatus t = elevatorStatus s) (perform a s) := by
  cases a with
  | xFrame => exact absurd (.inl rfl) ha
  | rst => exact absurd (.inr (.inl rfl)) ha
  | host w =>
    exact elevatorStatus_hostOp s (fun hstart => ha (.inr (.inr ⟨w, rfl, .inl hstart⟩)))
      fun hstop => ha (.inr (.inr ⟨w, rfl, .inr hstop⟩))
  | tick => exact allNext_next rfl
  | rxChar b perr ferr => exact allNext_next (elevatorStatus_rxChar s b _ ferr)
  | rxBits bits => exact allNext_next (elevatorStatus_rxBits s bits)
  | devOpenOk => exact allNext_next (elevatorStatus_devOpenOk s)
  | devOpenFail => exact allNext_next (elevatorStatus_devOpenFail s)
  | devError => exact allNext_next (elevatorStatus_devError s)
  | lOpen => exact allNext_next (elevatorStatus_lOpen s)
  | lIdle => exact allNext_next (elevatorStatus_lIdle s)
  | sSkip => exact allNext_next (elevatorStatus_sSkip s)
  | sEmit => exact allNext_next (elevatorStatus_sEmit s)
  | sReject => exact allNext_next (elevatorStatus_sReject s)
  | xTimeout => exact allNext_next (elevatorStatus_xTimeout s)
  | txByte => exact allNext_next (elevatorStatus_txByte s)

end

/-- Settles O56: a step of an action that is no owner leaves the register, by the frame lemma of that action. -/
theorem ownersWriteTheirRegisters : Obligations.OwnersWriteTheirRegisters := by
  refine ⟨fun s t hstep hchange => ?_, fun s t hstep hchange => ?_⟩
  · by_contra howner
    exact hchange (elevatorStatus_perform (beginStep s) howner t hstep)
  · have hnot : ∀ {a : Action}, AllNext (fun u => u.linkState = (beginStep s).linkState) (perform a (beginStep s)) →
        nextAction s ≠ a := fun hkept ha => hchange (hkept t (ha ▸ hstep))
    refine ⟨hnot (allNext_next rfl), hnot (linkState_xFrame _), hnot (allNext_next (linkState_xTimeout _)),
      hnot (allNext_next (linkState_txByte _)), fun w hw => ?_⟩
    by_contra hstop
    exact hnot (a := .host w) (linkState_hostOp _ hstop) hw

end Sys2Proof.Machine
end

section
/-! Decoding what the encoder wrote: the bytes of a frame, the row of its data number, the host word
(30_encoding.md R107). -/

namespace Sys2Proof

/-! ## The bytes of a frame -/

/-- `DECODE` of a CommandFrame's bytes, the counterpart of `decodeFrame_encodeAck`: hexadecimal characters read back as
the number they were written from, so the claimed checksum is the computed one (41_frame_codec.md R137). -/
theorem decodeFrame_encodeCmd {st : Station} (hst : st.isDigits = true) (dn v : W16) :
    decodeFrame (encodeCmd st dn v) = .ok (.cmd st dn v) := by
  have hdigits : (isDigit st.c0 && isDigit st.c1 && isDigit st.c2 && isDigit st.c3) = true := hst
  simp [decodeFrame, decodeCmd, encodeCmd, cmdBody, Station.bytes, hex4, hex2, hdigits, isHex_hexchar, unhex2_hexchar,
    unhex4_hexchar]

section
variable {c : Config} {st : Station} {dn v : W16}

theorem decodeCode_encodeCmd {i : Instr} (hst : st.isDigits = true) (hrow : classifyCmd c st dn v = i) :
    decodeCode c (.frame (encodeCmd st dn v)) = some i := by
  simp [decodeCode, decode, classify, Except.toOption, decodeFrame_encodeCmd hst, hrow]

theorem decodeCode_encodeAck (c : Config) (k : AckKind) (hst : st.isDigits = true) :
    decodeCode c (.frame (encodeAck k st)) = some (classify c (.ackFrame k st)) := by
  simp [decodeCode, decode, Except.toOption, decodeFrame_encodeAck, hst]

/-! ## The rows of the base registry that the value chooses -/

theorem classifyCmd_tgtFloor (hv : v ≠ 0x0000) : classifyCmd c st 0x0002 v = .tgtFloor st v := by
  simpa [classifyCmd] using hv

/-- A door value above `DOOR_CLOSE`'s is none of the three that have a row of their own (30_encoding.md R105, R109). -/
theorem classifyCmd_doorCtl (hv : 0x0002 < v) : classifyCmd c st 0x0011 v = .doorCtl st v := by
  have hne : ∀ d ≤ 0x0002, v ≠ d := fun d hd heq => absurd (heq ▸ hv) (BitVec.not_lt.mpr hd)
  have hstop : v ≠ 0x0000 := hne _ (by decide)
  have hopen : v ≠ 0x0001 := hne _ (by decide)
  have hclose : v ≠ 0x0002 := hne _ (by decide)
  simp_all [classifyCmd]

/-! ## The handshake rows -/

/-- The handshake rows in the order in which 45_session_rx.md R228 tries them, each with its data number. -/
def Config.handshakeRows (c : Config) : List (W16 × (Station → W16 → Instr)) :=
  [(c.dnPing, .ping), (c.dnStatusReq, .statusReq), (c.dnControlReq, .controlReq), (c.dnPong, .pong),
    (c.dnStatusRsp, .statusRsp), (c.dnControlAck, .controlAck), (c.dnFloorCmd, .floorCmd), (c.dnDoorCmd, .doorCmd)]

theorem Config.handshakeRows_keys_perm (c : Config) : (c.handshakeRows.map Prod.fst).Perm c.handshakeDns := by
  refine List.perm_iff_count.mpr fun d => ?_
  simp only [handshakeRows, handshakeDns, List.map_cons, List.map_nil, List.count_cons, List.count_nil]
  omega

/-- A data number of a handshake row is one of the configuration's handshake data numbers. -/
theorem Config.mem_handshakeDns_of_row {row : Station → W16 → Instr} (hrow : (dn, row) ∈ c.handshakeRows) :
    dn ∈ c.handshakeDns :=
  c.handshakeRows_keys_perm.mem_iff.mp (List.mem_map_of_mem hrow)

/-- What the premises on the parameters say of the handshake data numbers (00_scope.md R7, 90_conflicts.md C8). -/
theorem Config.handshakeDns_of_ok (hc : c.ok = true) : c.handshakeDns.Nodup ∧ ∀ d ∈ c.handshakeDns, d ∉ baseDns := by
  have hdns : c.handshakeDnsOk = true := by
    simp only [Config.ok, Bool.and_eq_true] at hc
    tauto
  simp only [handshakeDnsOk, Bool.and_eq_true, decide_eq_true_eq, List.all_eq_true, Bool.not_eq_true',
    List.contains_eq_mem, decide_eq_false_iff_not] at hdns
  obtain ⟨hnodup, hall⟩ := hdns
  exact ⟨hnodup, fun d hd => (hall d hd).2⟩

/-- A lookup that falls back on a default is a chain of tests, the first key first, as a dispatch is written. -/
theorem elim_lookup_cons {α β γ : Type} [BEq α] (a k : α) (row : β) (rows : List (α × β)) (fallback : γ) (f : β → γ) :
    (((k, row) :: rows).lookup a).elim fallback f = if a == k then f row else (rows.lookup a).elim fallback f := by
  rw [List.lookup_cons]
  cases a == k <;> rfl

/-- Behind the base registry the dispatch of R228 is a lookup in the handshake rows. -/
theorem classifyCmd_of_not_base (st : Station) (v : W16) (hbase : dn ∉ baseDns) (hen : c.handshakeEn = true) :
    classifyCmd c st dn v = (c.handshakeRows.lookup dn).elim (.unknownDn st dn v) fun row => row st v := by
  simp only [baseDns, List.mem_cons, List.not_mem_nil, or_false, not_or] at hbase
  obtain ⟨hcur, htgt, hload, hfloor, hdoor⟩ := hbase
  simp only [classifyCmd, hcur, htgt, hload, hfloor, hdoor, hen, beq_iff_eq, if_false, Bool.not_true,
    Bool.false_eq_true, Config.handshakeRows, elim_lookup_cons, List.lookup_nil, Option.elim_none]

/-- The keys being distinct, no earlier row hides this one. -/
theorem Config.lookup_handshakeRows (hc : c.ok = true) {row : Station → W16 → Instr}
    (hrow : (dn, row) ∈ c.handshakeRows) : c.handshakeRows.lookup dn = some row := by
  obtain ⟨hnodup, _⟩ := handshakeDns_of_ok hc
  have hkeys : (c.handshakeRows.map Prod.fst).Nodup := c.handshakeRows_keys_perm.nodup_iff.mpr hnodup
  obtain ⟨before, after, hsplit⟩ := List.append_of_mem hrow
  refine List.lookup_eq_some_iff.mpr ⟨before, after, hsplit, fun p hp => ?_⟩
  rw [hsplit, List.map_append, List.map_cons] at hkeys
  obtain ⟨_, _, hdistinct⟩ := List.nodup_append.mp hkeys
  exact bne_iff_ne.mpr (hdistinct _ (List.mem_map_of_mem hp) dn List.mem_cons_self).symm

theorem decodeCode_handshakeRow (hc : c.ok = true) (hwf : (st.isDigits && c.handshakeEn) = true)
    {row : Station → W16 → Instr} (hrow : (dn, row) ∈ c.handshakeRows) :
    decodeCode c (.frame (encodeCmd st dn v)) = some (row st v) := by
  obtain ⟨hst, hen⟩ := Bool.and_eq_true_iff.mp hwf
  obtain ⟨_, houtside⟩ := Config.handshakeDns_of_ok hc
  have hbase : dn ∉ baseDns := houtside dn (Config.mem_handshakeDns_of_row hrow)
  apply decodeCode_encodeCmd hst
  rw [classifyCmd_of_not_base st v hbase hen, Config.lookup_handshakeRows hc hrow]
  rfl

/-! ## The row of a data number in no registry in force -/

theorem Config.lookup_handshakeRows_eq_none (hdn : dn ∉ c.handshakeDns) : c.handshakeRows.lookup dn = none := by
  refine List.lookup_eq_none_iff.mpr fun p hp => ?_
  exact bne_iff_ne.mpr fun heq => hdn (heq ▸ mem_handshakeDns_of_row hp)

theorem classifyCmd_of_handshake_off (st : Station) (v : W16) (hbase : dn ∉ baseDns) (hen : c.handshakeEn = false) :
    classifyCmd c st dn v = .unknownDn st dn v := by
  simp_all [classifyCmd, baseDns]

/-- A data number in no registry in force is `UNKNOWN_DN` (30_encoding.md R104, 45_session_rx.md R236). -/
theorem classifyCmd_unknownDn (hdn : c.knownDn dn = false) : classifyCmd c st dn v = .unknownDn st dn v := by
  obtain ⟨hbase, hhandshake⟩ : dn ∉ baseDns ∧ (c.handshakeEn = true → dn ∉ c.handshakeDns) := by
    simpa [Config.knownDn] using hdn
  cases hen : c.handshakeEn with
  | false => exact classifyCmd_of_handshake_off st v hbase hen
  | true =>
    rw [classifyCmd_of_not_base st v hbase hen, Config.lookup_handshakeRows_eq_none (hhandshake hen)]
    rfl

/-! ## The host word -/

/-- The five operation codes with a row are read back, and `ISSUE` reads its operands back too (30_encoding.md R110). -/
theorem decodeCode_encode_hostOp (c : Config) {i : Instr} (hi : i.isHostOp = true) :
    decodeCode c (encode c i) = some i := by
  cases i with
  | nop | start | stop | issue _ _ | snapshot =>
    simp [encode, decodeCode, decodeHop, hopWord_fields, Except.toOption]
  | _ => cases hi

end

/-- Settles O1, row by row: the bytes of the frame or the fields of the host word read back, and then the dispatch finds
the row that was encoded. -/
theorem decodeEncodeEveryInstruction : Obligations.DecodeEncodeEveryInstruction := by
  intro c i hc hwf
  cases i with
  | curFloor _ _ | tgtNone _ | load _ _ | floorSet _ _ | doorStop _ | doorOpen _ | doorClose _ =>
    exact decodeCode_encodeCmd hwf rfl
  | tgtFloor st v =>
    obtain ⟨hst, hv⟩ := Bool.and_eq_true_iff.mp hwf
    exact decodeCode_encodeCmd hst (classifyCmd_tgtFloor (bne_iff_ne.mp hv))
  | doorCtl st v =>
    obtain ⟨hst, hv⟩ := Bool.and_eq_true_iff.mp hwf
    exact decodeCode_encodeCmd hst (classifyCmd_doorCtl (of_decide_eq_true hv))
  | ping st v | pong st v | statusReq st v | statusRsp st v | controlReq st v | controlAck st v | floorCmd st v
  | doorCmd st v =>
    exact decodeCode_handshakeRow hc hwf (by simp [Config.handshakeRows])
  | unknownDn st dn v =>
    obtain ⟨hst, hdn⟩ := Bool.and_eq_true_iff.mp hwf
    exact decodeCode_encodeCmd hst (classifyCmd_unknownDn (by simpa using hdn))
  | ack st => exact decodeCode_encodeAck c .ack hwf
  | nak st => exact decodeCode_encodeAck c .nak hwf
  | nop | start | stop | issue _ _ | snapshot => exact decodeCode_encode_hostOp c rfl

end Sys2Proof
end

section
/-! The checksum: its accumulator is a sum of bytes modulo 2^16, its text is two hexadecimal characters
(40_checksum.md). -/

namespace Sys2Proof

/-! ## Hexadecimal characters written and read (00_scope.md R10) -/

/-- A written character is upper case. -/
theorem hexchar_digit_or_upper (n : BitVec 4) :
    isDigit (hexchar n) = true ∨ (0x41 ≤ hexchar n ∧ hexchar n ≤ 0x46) := by
  revert n; decide

/-- Reading a hexadecimal character and writing its value again makes a letter upper case and changes nothing else. -/
theorem hexchar_hexval {a : Byte} (ha : isHex a = true) : hexchar (hexval a) = if 0x61 ≤ a then a - 0x20 else a := by
  revert a; decide

theorem toNat_high_nibble (v : Byte) : (v.extractLsb' 4 4).toNat = v.toNat / 16 := by
  rw [BitVec.extractLsb'_toNat, Nat.shiftRight_eq_div_pow]
  omega

theorem toNat_low_nibble (v : Byte) : (v.extractLsb' 0 4).toNat = v.toNat % 16 := by
  rw [BitVec.extractLsb'_toNat, Nat.shiftRight_zero]

theorem hex2_unhex2 (a b : Byte) : hex2 (unhex2 a b) = [hexchar (hexval a), hexchar (hexval b)] := by
  have hhigh : (hexval a ++ hexval b).extractLsb' 4 4 = hexval a := BitVec.extractLsb'_append_eq_left
  have hlow : (hexval a ++ hexval b).extractLsb' 0 4 = hexval b := BitVec.extractLsb'_append_eq_right
  exact congrArg₂ (fun h l => [hexchar h, hexchar l]) hhigh hlow

theorem toNat_bounds_of_isDigit {b : Byte} (hb : isDigit b = true) : 0x30 ≤ b.toNat ∧ b.toNat ≤ 0x39 := by
  simpa [isDigit, BitVec.le_def] using hb

/-- The three ranges of `HEX` lie between `'0'` and `'f'`. -/
theorem toNat_bounds_of_isHex {b : Byte} (hb : isHex b = true) : 0x30 ≤ b.toNat ∧ b.toNat ≤ 0x66 := by
  simp only [isHex, Bool.or_eq_true, Bool.and_eq_true, decide_eq_true_eq, BitVec.le_def, BitVec.reduceToNat] at hb
  rcases hb with (hdigit | hupper) | hlower
  · have := toNat_bounds_of_isDigit hdigit
    omega
  · omega
  · omega

/-! ## The accumulator and its fold (40_checksum.md R120) -/

/-- The sum of the bytes as numbers, without a bound. -/
def byteSum (B : List Byte) : Nat := (B.map BitVec.toNat).sum

theorem toNat_foldl_add (B : List Byte) (acc : W16) :
    (B.foldl (fun acc b => acc + b.setWidth 16) acc).toNat = (acc.toNat + byteSum B) % 2 ^ 16 := by
  induction B generalizing acc with
  | nil => exact (Nat.mod_eq_of_lt acc.isLt).symm
  | cons b B ih =>
    have hb : b.toNat < 2 ^ 8 := b.isLt
    simp only [byteSum] at ih
    simp only [byteSum, List.foldl_cons, ih, List.map_cons, List.sum_cons, BitVec.toNat_add, BitVec.toNat_setWidth]
    omega

theorem toNat_ckAcc (B : List Byte) : (ckAcc B).toNat = byteSum B % 2 ^ 16 := by
  rw [ckAcc, toNat_foldl_add, BitVec.ofNat_eq_ofNat, BitVec.toNat_zero, Nat.zero_add]

theorem toNat_ckCompute (B : List Byte) :
    (ckCompute B).toNat = (byteSum B % 2 ^ 16 % 256 + byteSum B % 2 ^ 16 / 256) % 256 := by
  rw [ckCompute, BitVec.toNat_add, BitVec.extractLsb'_toNat, BitVec.extractLsb'_toNat, toNat_ckAcc,
    Nat.shiftRight_zero, Nat.shiftRight_eq_div_pow]
  omega

/-- Settles O5: the fold by the accumulator's value, the text by the characters of the two nibbles. -/
theorem checksumIsFoldOfSum : Obligations.ChecksumIsFoldOfSum := by
  refine ⟨toNat_ckCompute, fun v => ⟨_, _, rfl, hexchar_digit_or_upper _, hexchar_digit_or_upper _, ?_, ?_⟩⟩
  · rw [hexval_hexchar, toNat_high_nibble]
  · rw [hexval_hexchar, toNat_low_nibble]

/-! ## Verification (40_checksum.md R121, R123) -/

theorem ckVerify_pair (B : List Byte) (a b : Byte) :
    ckVerify B [a, b] = true ↔ isHex a = true ∧ isHex b = true ∧ unhex2 a b = ckCompute B := by
  simp [ckVerify, and_assoc]

theorem length_of_ckVerify {B C : List Byte} (h : ckVerify B C = true) : C.length = 2 := by
  unfold ckVerify at h
  split at h
  · rfl
  · cases h

theorem ckVerify_iff (B C : List Byte) :
    ckVerify B C = true ↔ ∃ a b, C = [a, b] ∧ isHex a = true ∧ isHex b = true ∧ unhex2 a b = ckCompute B := by
  constructor
  · intro h
    obtain ⟨a, b, rfl⟩ := List.length_eq_two.mp (length_of_ckVerify h)
    exact ⟨a, b, rfl, (ckVerify_pair B a b).mp h⟩
  · rintro ⟨a, b, rfl, h⟩
    exact (ckVerify_pair B a b).mpr h

/-- A value written as text is read back, so its text verifies only for the value computed. -/
theorem ckVerify_hex2 (B : List Byte) (v : Byte) : ckVerify B (hex2 v) = true ↔ v = ckCompute B := by
  rw [hex2, ckVerify_pair, unhex2_hexchar]
  simp [isHex_hexchar]

/-- Settles O6: the clauses on text and value are `ckVerify_hex2`, the one on letter case reads the two characters and
writes them again. -/
theorem checksumVerifyIsExact : Obligations.ChecksumVerifyIsExact := by
  refine ⟨ckVerify_iff, fun B => (ckVerify_hex2 B _).mpr rfl, ckVerify_hex2, fun B a b h => ?_⟩
  obtain ⟨ha, hb, hvalue⟩ := (ckVerify_pair B a b).mp h
  rw [← hvalue, hex2_unhex2, hexchar_hexval ha, hexchar_hexval hb]

/-! ## The range of the sum and the order of the bytes (40_checksum.md R122) -/

theorem byteSum_append_cons (S H : List Byte) (b : Byte) :
    byteSum (S ++ b :: H) = byteSum S + b.toNat + byteSum H := by
  simp [byteSum, Nat.add_assoc]

theorem byteSum_perm {B C : List Byte} (h : B.Perm C) : byteSum B = byteSum C := (h.map _).sum_eq

/-- Bytes that lie between two bounds add up to a sum between as many times each. -/
theorem byteSum_bounds {lo hi : Nat} {B : List Byte} (hB : ∀ b ∈ B, lo ≤ b.toNat ∧ b.toNat ≤ hi) :
    B.length * lo ≤ byteSum B ∧ byteSum B ≤ B.length * hi := by
  have hlo := List.card_nsmul_le_sum (B.map BitVec.toNat) lo (List.forall_mem_map.mpr fun b hb => (hB b hb).1)
  have hhi := List.sum_le_card_nsmul (B.map BitVec.toNat) hi (List.forall_mem_map.mpr fun b hb => (hB b hb).2)
  simpa [byteSum] using And.intro hlo hhi

theorem byteSum_le (B : List Byte) : byteSum B ≤ B.length * 0xFF :=
  (byteSum_bounds (lo := 0) fun b _ => ⟨Nat.zero_le _, Nat.le_pred_of_lt b.isLt⟩).2

/-- Up to 257 bytes the accumulator does not wrap (40_checksum.md R122 (b)). -/
theorem toNat_ckAcc_of_length_le {B : List Byte} (hB : B.length ≤ 257) : (ckAcc B).toNat = byteSum B := by
  have hsum := byteSum_le B
  rw [toNat_ckAcc, Nat.mod_eq_of_lt (by omega)]

theorem ckAcc_perm {B C : List Byte} (h : B.Perm C) : ckAcc B = ckAcc C :=
  BitVec.eq_of_toNat_eq (by rw [toNat_ckAcc, toNat_ckAcc, byteSum_perm h])

/-- The accumulator of a well-formed body: four digits, `'W'`, eight hexadecimal characters (40_checksum.md R122 (d)). -/
theorem ckAcc_body_bounds {S H : List Byte} (hS : S.length = 4) (hdigits : ∀ b ∈ S, isDigit b = true)
    (hH : H.length = 8) (hhex : ∀ b ∈ H, isHex b = true) :
    0x0297 ≤ (ckAcc (S ++ CMD_W :: H)).toNat ∧ (ckAcc (S ++ CMD_W :: H)).toNat ≤ 0x046B := by
  have hlength : (S ++ CMD_W :: H).length ≤ 257 := by simp [hS, hH]
  have hstation := byteSum_bounds fun b hb => toNat_bounds_of_isDigit (hdigits b hb)
  have hoperands := byteSum_bounds fun b hb => toNat_bounds_of_isHex (hhex b hb)
  have hletter : BitVec.toNat CMD_W = 0x57 := rfl
  rw [toNat_ckAcc_of_length_le hlength, byteSum_append_cons]
  omega

/-- Settles O7: the first two clauses bound the sum of the bytes, below the point where the accumulator wraps; the third
holds because the checksum sees of its input the accumulator alone. -/
theorem checksumRangeAndOrder : Obligations.ChecksumRangeAndOrder := by
  refine ⟨fun B hB => ?_, fun S H hS hdigits hH hhex => ckAcc_body_bounds hS hdigits hH hhex, fun B C h => ?_⟩
  · have hacc : (ckAcc B).toNat = byteSum B := toNat_ckAcc_of_length_le (by omega)
    have hsum := byteSum_le B
    exact ⟨hacc, by omega⟩
  · rw [ckCompute, ckCompute, ckAcc_perm h]

end Sys2Proof
end

section
/-! The frame codec: its checks in order, and what its two round trips keep (41_frame_codec.md). -/

namespace Sys2Proof

/-! ## The control byte chooses the form (41_frame_codec.md R132) -/

theorem decodeFrame_of_enq {B : List Byte} (hB : B.head? = some ENQ) : decodeFrame B = decodeCmd B := by
  obtain ⟨B, rfl⟩ := List.head?_eq_some_iff.mp hB
  rfl

theorem decodeFrame_of_ackByte {k : AckKind} {B : List Byte} (hB : B.head? = some k.byte) :
    decodeFrame B = decodeAck k B := by
  obtain ⟨B, rfl⟩ := List.head?_eq_some_iff.mp hB
  cases k <;> rfl

theorem decodeFrame_of_no_control {B : List Byte} (henq : B.head? ≠ some ENQ) (hack : B.head? ≠ some ACK)
    (hnak : B.head? ≠ some NAK) : decodeFrame B = .error .malformedFrame := by
  cases B with
  | nil => rfl
  | cons b B =>
    simp only [List.head?_cons, ne_eq, Option.some.injEq] at henq hack hnak
    simp only [decodeFrame, beq_iff_eq, henq, hack, hnak, if_false]

/-! ## AckFrames (41_frame_codec.md R134) -/

theorem Station.isDigits_iff (st : Station) : st.isDigits = true ↔ ∀ b ∈ st.bytes, isDigit b = true := by
  simp [isDigits, bytes, and_assoc]

theorem decodeAck_of_length_ne {k : AckKind} {B : List Byte} (hB : B.length ≠ 5) :
    decodeAck k B = .error .malformedAck := by
  unfold decodeAck
  split
  · exact absurd rfl hB
  · rfl

/-- Five bytes of which the first is the control byte of `k` are the encoding of some station. -/
theorem eq_encodeAck_of_length {k : AckKind} {B : List Byte} (hB : B.head? = some k.byte) (hlength : B.length = 5) :
    ∃ st, B = encodeAck k st := by
  obtain ⟨S, rfl⟩ := List.head?_eq_some_iff.mp hB
  obtain ⟨s0, s1, s2, s3, rfl⟩ := List.length_eq_four.mp (Nat.succ.inj hlength)
  exact ⟨⟨s0, s1, s2, s3⟩, rfl⟩

/-- Settles O9: a string of another length fails the match of `DECODE_ACK`; one of five bytes is an encoding, and its
decoding looks at the station alone (`decodeFrame_encodeAck`). -/
theorem decodeAckChecks : Obligations.DecodeAckChecks := by
  intro k B hB
  by_cases hlength : B.length = 5
  · obtain ⟨st, rfl⟩ := eq_encodeAck_of_length hB hlength
    have hdigits : st.isDigits = true ↔ ∀ b ∈ (encodeAck k st).drop 1, isDigit b = true := st.isDigits_iff
    refine ⟨fun _ hall => ⟨_, _, _, _, rfl, ?_⟩, fun hbad => ?_⟩
    · rw [decodeFrame_encodeAck, if_pos (hdigits.mpr hall)]
    · obtain ⟨b, hb, hno⟩ := hbad.resolve_left (absurd hlength)
      have hst : ¬ st.isDigits = true := fun h => Bool.false_ne_true (hno.symm.trans (hdigits.mp h b hb))
      rw [decodeFrame_encodeAck, if_neg hst]
  · exact ⟨(absurd · hlength), fun _ => (decodeFrame_of_ackByte hB).trans (decodeAck_of_length_ne hlength)⟩

/-! ## CommandFrames (41_frame_codec.md R133) -/

/-- What `DECODE_CMD` checks before the checksum: the length, the station's digits, the letter, the hexadecimal
characters of the two operands and of the checksum. -/
structure CmdShape (B : List Byte) : Prop where
  length : B.length = 16
  station : ∀ b ∈ (B.drop 1).take 4, isDigit b = true
  letter : B[5]? = some CMD_W
  hex : ∀ b ∈ B.drop 6, isHex b = true

theorem cmdShape_iff (B : List Byte) :
    CmdShape B ↔ B.length = 16 ∧ (∀ b ∈ (B.drop 1).take 4, isDigit b = true) ∧ B[5]? = some CMD_W
      ∧ ∀ b ∈ B.drop 6, isHex b = true :=
  ⟨fun h => ⟨h.length, h.station, h.letter, h.hex⟩,
    fun ⟨hlength, hstation, hletter, hhex⟩ => ⟨hlength, hstation, hletter, hhex⟩⟩

/-- The ways to miss the shape, in the order of the checks. -/
theorem not_cmdShape_iff (B : List Byte) :
    ¬ CmdShape B ↔ B.length ≠ 16 ∨ (∃ b ∈ (B.drop 1).take 4, isDigit b = false) ∨ B[5]? ≠ some CMD_W
      ∨ ∃ b ∈ B.drop 6, isHex b = false := by
  rw [cmdShape_iff]
  simp only [not_and_or, not_forall, Bool.not_eq_true, exists_prop, ne_eq]

theorem CmdShape.exists_bytes {B : List Byte} (hB : CmdShape B) (henq : B.head? = some ENQ) :
    ∃ s0 s1 s2 s3 n0 n1 n2 n3 v0 v1 v2 v3 k0 k1,
      B = [ENQ, s0, s1, s2, s3, CMD_W, n0, n1, n2, n3, v0, v1, v2, v3, k0, k1] := by
  obtain ⟨hlength, -, hletter, -⟩ := hB
  match B, hlength with
  | [b, s0, s1, s2, s3, w, n0, n1, n2, n3, v0, v1, v2, v3, k0, k1], _ =>
    cases henq
    cases hletter
    exact ⟨_, _, _, _, _, _, _, _, _, _, _, _, _, _, rfl⟩

/-- The branch of `DECODE_CMD` that reaches the checksum is the one where every check of the shape has passed. -/
theorem decodeCmd_of_not_cmdShape {B : List Byte} (hB : ¬ CmdShape B) : decodeCmd B = .error .malformedCommand := by
  unfold decodeCmd
  split
  next =>
    split_ifs with hstation hletter hhex
    · rfl
    · rfl
    · rfl
    all_goals
      refine absurd ⟨rfl, ?_, ?_, ?_⟩ hB
      · simpa [and_assoc] using hstation
      · simpa using hletter
      · simpa using hhex
  next => rfl

section
variable {s0 s1 s2 s3 n0 n1 n2 n3 v0 v1 v2 v3 k0 k1 : Byte}

/-- On bytes of the right shape what is left of `DECODE_CMD` is the checksum's comparison. -/
theorem decodeFrame_of_cmdShape
    (hB : CmdShape [ENQ, s0, s1, s2, s3, CMD_W, n0, n1, n2, n3, v0, v1, v2, v3, k0, k1]) :
    decodeFrame [ENQ, s0, s1, s2, s3, CMD_W, n0, n1, n2, n3, v0, v1, v2, v3, k0, k1] =
      if unhex2 k0 k1 = ckCompute [s0, s1, s2, s3, CMD_W, n0, n1, n2, n3, v0, v1, v2, v3]
        then .ok (.cmd ⟨s0, s1, s2, s3⟩ (unhex4 n0 n1 n2 n3) (unhex4 v0 v1 v2 v3))
        else .error (.checksumMismatch (unhex2 k0 k1)
          (ckCompute [s0, s1, s2, s3, CMD_W, n0, n1, n2, n3, v0, v1, v2, v3])) := by
  have hstation : (isDigit s0 && isDigit s1 && isDigit s2 && isDigit s3) = true := by
    simpa [and_assoc] using hB.station
  have hhex : [n0, n1, n2, n3, v0, v1, v2, v3, k0, k1].all isHex = true := List.all_eq_true.mpr hB.hex
  rw [decodeFrame_of_enq rfl]
  simp only [decodeCmd, hstation, hhex, Bool.not_true, bne_self_eq_false, Bool.false_eq_true, if_false, bne_iff_ne,
    ite_not]
end

/-- Settles O8: bytes without the shape are malformed whatever their checksum; with it, the checksum decides; and the
control byte comes before either. -/
theorem decodeCommandChecks : Obligations.DecodeCommandChecks := by
  refine ⟨fun B henq => ⟨fun hbad => ?_, fun hgood => ?_⟩, fun B => decodeFrame_of_no_control⟩
  · rw [decodeFrame_of_enq henq, decodeCmd_of_not_cmdShape ((not_cmdShape_iff B).mpr hbad)]
  · have hB : CmdShape B := not_not.mp (mt (not_cmdShape_iff B).mp hgood)
    obtain ⟨s0, s1, s2, s3, n0, n1, n2, n3, v0, v1, v2, v3, k0, k1, rfl⟩ := hB.exists_bytes henq
    exact ⟨_, _, _, _, _, _, _, _, _, _, _, _, _, _, rfl, decodeFrame_of_cmdShape hB⟩

/-! ## The converse of the round trip (41_frame_codec.md R137) -/

/-- Only the control byte of a CommandFrame begins one. -/
theorem head_of_decodeFrame_cmd {B : List Byte} {st : Station} {dn v : W16} (h : decodeFrame B = .ok (.cmd st dn v)) :
    B.head? = some ENQ := by
  have hnot_ack : ∀ k : AckKind, B.head? ≠ some k.byte := fun k hk => by
    obtain ⟨_, hframe, -⟩ := Machine.decodeAck_ok ((decodeFrame_of_ackByte hk).symm.trans h)
    cases hframe
  by_contra henq
  rw [decodeFrame_of_no_control henq (hnot_ack .ack) (hnot_ack .nak)] at h
  cases h

/-- What a decoded CommandFrame's bytes are: the station, the letter, characters that read as the two operands, and
characters that read as the checksum of the bytes between. -/
theorem bytes_of_decodeFrame_cmd {B : List Byte} {st : Station} {dn v : W16} (h : decodeFrame B = .ok (.cmd st dn v)) :
    ∃ n0 n1 n2 n3 v0 v1 v2 v3 k0 k1,
      B = ENQ :: (st.bytes ++ CMD_W :: ([n0, n1, n2, n3] ++ [v0, v1, v2, v3]) ++ [k0, k1])
      ∧ dn = unhex4 n0 n1 n2 n3 ∧ v = unhex4 v0 v1 v2 v3
      ∧ ckCompute (st.bytes ++ CMD_W :: ([n0, n1, n2, n3] ++ [v0, v1, v2, v3])) = unhex2 k0 k1 := by
  have henq : B.head? = some ENQ := head_of_decodeFrame_cmd h
  have hB : CmdShape B := by
    by_contra hB
    rw [decodeFrame_of_enq henq, decodeCmd_of_not_cmdShape hB] at h
    cases h
  obtain ⟨s0, s1, s2, s3, n0, n1, n2, n3, v0, v1, v2, v3, k0, k1, rfl⟩ := hB.exists_bytes henq
  rw [decodeFrame_of_cmdShape hB] at h
  split_ifs at h with hck
  cases h
  exact ⟨_, _, _, _, _, _, _, _, _, _, rfl, rfl, rfl, hck.symm⟩

/-- Four characters read as one number and written again, one nibble at a time; the counterpart of `hex2_unhex2`. -/
theorem hex4_unhex4 (a b c d : Byte) : hex4 (unhex4 a b c d) = [a, b, c, d].map (hexchar ∘ hexval) := by
  have habove : ∀ {u k : Nat} {x : BitVec u} {y : BitVec 4}, (x ++ y).extractLsb' (k + 4) 4 = x.extractLsb' k 4 :=
    BitVec.extractLsb'_append_eq_of_le (Nat.le_add_left ..)
  have hfirst : (unhex4 a b c d).extractLsb' 12 4 = hexval a :=
    habove.trans (habove.trans BitVec.extractLsb'_append_eq_left)
  have hsecond : (unhex4 a b c d).extractLsb' 8 4 = hexval b :=
    habove.trans (habove.trans BitVec.extractLsb'_append_eq_right)
  have hthird : (unhex4 a b c d).extractLsb' 4 4 = hexval c := habove.trans BitVec.extractLsb'_append_eq_right
  have hfourth : (unhex4 a b c d).extractLsb' 0 4 = hexval d := BitVec.extractLsb'_append_eq_right
  rw [hex4, hfirst, hsecond, hthird, hfourth]
  rfl

/-- `'0'` to `'9'` or `'A'` to `'F'`, the characters that the encoder writes. -/
abbrev IsUpperHex (b : Byte) : Prop := isDigit b = true ∨ (0x41 ≤ b ∧ b ≤ 0x46)

theorem hexchar_hexval_of_isUpperHex {b : Byte} (hb : IsUpperHex b) : hexchar (hexval b) = b := by
  revert b; decide

theorem map_hexchar_hexval {B : List Byte} (hB : ∀ b ∈ B, IsUpperHex b) : B.map (hexchar ∘ hexval) = B :=
  (List.map_congr_left fun b hb => hexchar_hexval_of_isUpperHex (hB b hb)).trans B.map_id

theorem isUpperHex_of_mem_encodeCmd {st : Station} {dn v : W16} {b : Byte} (hb : b ∈ (encodeCmd st dn v).drop 6) :
    IsUpperHex b := by
  have hchars : ∃ nibbles : List (BitVec 4), (encodeCmd st dn v).drop 6 = nibbles.map hexchar :=
    ⟨[_, _, _, _, _, _, _, _, _, _], rfl⟩
  obtain ⟨nibbles, heq⟩ := hchars
  obtain ⟨n, -, rfl⟩ := List.mem_map.mp (heq ▸ hb)
  exact hexchar_digit_or_upper n

/-- Upper-case characters read and written again are the same, so the bytes that decoded are the bytes encoded. -/
theorem encodeCmd_of_decodeFrame {B : List Byte} {st : Station} {dn v : W16}
    (h : decodeFrame B = .ok (.cmd st dn v)) (hupper : ∀ b ∈ B.drop 6, IsUpperHex b) : encodeCmd st dn v = B := by
  obtain ⟨n0, n1, n2, n3, v0, v1, v2, v3, k0, k1, rfl, rfl, rfl, hck⟩ := bytes_of_decodeFrame_cmd h
  have htail : ∀ b ∈ [n0, n1, n2, n3] ++ [v0, v1, v2, v3] ++ [k0, k1], IsUpperHex b := hupper
  simp only [List.forall_mem_append] at htail
  obtain ⟨⟨hn, hv⟩, hk⟩ := htail
  have hdn : hex4 (unhex4 n0 n1 n2 n3) = [n0, n1, n2, n3] := (hex4_unhex4 ..).trans (map_hexchar_hexval hn)
  have hvalue : hex4 (unhex4 v0 v1 v2 v3) = [v0, v1, v2, v3] := (hex4_unhex4 ..).trans (map_hexchar_hexval hv)
  have hclaim : hex2 (unhex2 k0 k1) = [k0, k1] := (hex2_unhex2 ..).trans (map_hexchar_hexval hk)
  rw [encodeCmd, cmdBody, hdn, hvalue, hck, hclaim]

/-- Settles O2: the round trips are those of the two encoders; for the converse, reading and writing again changes the
letter case alone. -/
theorem frameRoundTripAndConverse : Obligations.FrameRoundTripAndConverse := by
  refine ⟨fun st dn v hst => decodeFrame_encodeCmd hst dn v, fun k st hst => ?_, fun B st dn v h => ⟨?_, ?_⟩⟩
  · rw [decodeFrame_encodeAck, if_pos hst]
  · rintro rfl b hb
    exact isUpperHex_of_mem_encodeCmd hb
  · exact encodeCmd_of_decodeFrame h

end Sys2Proof
end

section
/-! The character on the line (42_serial_phy.md R150, R153). -/

namespace Sys2Proof.Machine

/-! ## The data bits -/

/-- Eight data bits, least significant first, read back as the byte they were taken from (20_memory.md R71). -/
theorem byteOfBits_getElem (b : Byte) : byteOfBits b[0] b[1] b[2] b[3] b[4] b[5] b[6] b[7] = b := by
  revert b; decide

/-- The exclusive or of bits, started at `a`, has the parity of their ones. -/
theorem count_true_add_foldl_xor (l : List Bool) (a : Bool) :
    (l.count true + (l.foldl xor a).toNat) % 2 = a.toNat := by
  induction l generalizing a with
  | nil => cases a <;> rfl
  | cons x l ih =>
    cases x with
    | false => simpa using ih a
    | true =>
      have hrest := ih (!a)
      have hflip : (!a).toNat + a.toNat = 1 := by cases a <;> rfl
      rw [List.foldl_cons, List.count_cons_self, Bool.xor_true]
      omega

/-- The parity bit makes the number of ones even (42_serial_phy.md R150). -/
theorem count_true_data_parity (b : Byte) : (dataBits b ++ [parityBit b]).count true % 2 = 0 := by
  have hbit : [parityBit b].count true = (parityBit b).toNat := by cases parityBit b <;> rfl
  rw [List.count_append, hbit]
  exact count_true_add_foldl_xor (dataBits b) false

/-! ## The receiver -/

/-- With even parity: the byte of the data bits, the parity bit compared, the stop bit inverted. -/
theorem receiveChar_even (b : Byte) (par stop : Bool) :
    receiveChar .even (false :: (dataBits b ++ [par, stop])) = some (b, par != parityBit b, !stop) := by
  simp [receiveChar, dataBits, byteOfBits_getElem]

/-- Without parity there is no parity error. -/
theorem receiveChar_off (b : Byte) (stop : Bool) :
    receiveChar .off (false :: (dataBits b ++ [stop])) = some (b, false, !stop) := by
  simp [receiveChar, dataBits, byteOfBits_getElem]

/-- What `charBits` sends is received without error. -/
theorem receiveChar_charBits (p : Parity) (b : Byte) : receiveChar p (charBits p b) = some (b, false, false) := by
  cases p with
  | even => simp [charBits, receiveChar_even]
  | off => simp [charBits, receiveChar_off]

/-- Settles O48: the clauses on the receiver by what it makes of data bits, parity bit and stop bit, the one on parity by
`count_true_data_parity`. -/
theorem characterIsReceivedAsSent : Obligations.CharacterIsReceivedAsSent := by
  refine ⟨receiveChar_charBits, fun b => ⟨rfl, rfl, count_true_data_parity b, ?_, ?_, ?_⟩⟩
  · simp [receiveChar_even]
  · simp [receiveChar_even]
  · simp [receiveChar_off]

end Sys2Proof.Machine
end

section
/-! The step `TxByte` of the schedule (42_serial_phy.md R152). -/

namespace Sys2Proof.Machine

/-- Where `TxByte` is not enabled it changes nothing. -/
theorem txByte_of_not_enabled {s : State} (h : linkUp s = false ∨ s.txq = []) : txByte s = s := by
  rcases h with hdown | hempty
  · simp [txByte, hdown]
  · simp [txByte, hempty]

theorem step_of_sched_txByte {s : State} {r : List Action} (h : s.sched = .txByte :: r) :
    step s = .next (txByte (beginStep s)) :=
  step_of_sched h

/-- Settles O46: the two cases of `TxByte`, on the state that `beginStep` leaves. -/
theorem transmitterSendsTheNextByte : Obligations.TransmitterSendsTheNextByte := by
  refine fun s r hsched => ⟨fun F q b hup htxq hbyte => ?_, fun hoff => ?_⟩
  · obtain ⟨hidx, rfl⟩ := List.getElem?_eq_some_iff.mp hbyte
    rw [step_of_sched_txByte hsched]
    exact congrArg _ (txByte_of_head (s := beginStep s) hup htxq hidx)
  · rw [step_of_sched_txByte hsched]
    exact congrArg _ (txByte_of_not_enabled (s := beginStep s) hoff)

end Sys2Proof.Machine
end

section
/-! A station's own frames heard back (42_serial_phy.md R157). -/

namespace Sys2Proof

/-- What the premises on the parameters say of the two station ids (00_scope.md R7). -/
theorem Config.stations_of_ok {c : Config} (hc : c.ok = true) :
    c.ownId.isDigits = true ∧ c.peerId.isDigits = true ∧ c.ownId ≠ c.peerId := by
  simp only [ok, Bool.and_eq_true, bne_iff_ne] at hc
  tauto

theorem decode_encodeCmd (c : Config) {st : Station} (hst : st.isDigits = true) (dn v : W16) :
    decode c (encodeCmd st dn v) = .ok (classifyCmd c st dn v) := by
  simp [decode, classify, decodeFrame_encodeCmd hst]

theorem decode_encodeAck (c : Config) (k : AckKind) {st : Station} (hst : st.isDigits = true) :
    decode c (encodeAck k st) = .ok (classify c (.ackFrame k st)) := by
  simp [decode, decodeFrame_encodeAck, hst]

end Sys2Proof

namespace Sys2Proof.Machine

section
variable {s : State} {dn : W16}

/-! ## Every CommandFrame's row takes the common way -/

/-- The rows of the base registry, two of its data numbers with a row for some values (30_encoding.md R99, R109). -/
theorem exec_classifyCmd_of_base (st : Station) (v : W16) (hbase : dn ∈ baseDns) :
    ∃ body, exec (classifyCmd s.cfg st dn v) s = onFrame (onCommand st dn v body) s := by
  simp only [baseDns, List.mem_cons, List.not_mem_nil, or_false] at hbase
  rcases hbase with rfl | rfl | rfl | rfl | rfl
  · exact ⟨_, rfl⟩
  · by_cases hv : v = 0x0000
    · exact hv ▸ ⟨_, rfl⟩
    · exact classifyCmd_tgtFloor (c := s.cfg) hv ▸ ⟨_, rfl⟩
  · exact ⟨_, rfl⟩
  · exact ⟨_, rfl⟩
  · have hdoor : v = 0x0000 ∨ v = 0x0001 ∨ v = 0x0002 ∨ 0x0002 < v := by bv_omega
    rcases hdoor with rfl | rfl | rfl | hv
    · exact ⟨_, rfl⟩
    · exact ⟨_, rfl⟩
    · exact ⟨_, rfl⟩
    · exact classifyCmd_doorCtl (c := s.cfg) hv ▸ ⟨_, rfl⟩

/-- The rows of the handshake registry (30_encoding.md R102). -/
theorem exec_handshakeRow {row : Station → W16 → Instr} (hrow : (dn, row) ∈ s.cfg.handshakeRows) (st : Station)
    (v : W16) : ∃ body, exec (row st v) s = onFrame (onCommand st dn v body) s := by
  simp only [Config.handshakeRows, List.mem_cons, List.not_mem_nil, or_false, Prod.mk.injEq] at hrow
  rcases hrow with ⟨rfl, rfl⟩ | ⟨rfl, rfl⟩ | ⟨rfl, rfl⟩ | ⟨rfl, rfl⟩ | ⟨rfl, rfl⟩ | ⟨rfl, rfl⟩ | ⟨rfl, rfl⟩ | ⟨rfl, rfl⟩
  all_goals exact ⟨_, rfl⟩

/-- Whatever its row, a CommandFrame takes the common way of 45_session_rx.md R224 to R227 with the data number and the
value that it carries; the rows differ in the effect at its end. -/
theorem exec_classifyCmd (s : State) (st : Station) (dn v : W16) :
    ∃ body, exec (classifyCmd s.cfg st dn v) s = onFrame (onCommand st dn v body) s := by
  by_cases hbase : dn ∈ baseDns
  · exact exec_classifyCmd_of_base st v hbase
  cases hen : s.cfg.handshakeEn with
  | false => exact classifyCmd_of_handshake_off st v hbase hen ▸ ⟨_, rfl⟩
  | true =>
    rw [classifyCmd_of_not_base st v hbase hen]
    cases hlookup : s.cfg.handshakeRows.lookup dn with
    | none => exact ⟨_, rfl⟩
    | some row =>
      obtain ⟨before, after, hsplit, -⟩ := List.lookup_eq_some_iff.mp hlookup
      exact exec_handshakeRow (by simp [hsplit]) st v

end

/-! ## The two frames that are not for this station -/

section
variable {s : State}

/-- A CommandFrame for another station is popped and ignored, whatever its row (45_session_rx.md R225). -/
theorem exec_classifyCmd_of_not_own (hready : frameReady s = true) {st : Station} (hst : st ≠ s.cfg.ownId)
    (dn v : W16) :
    exec (classifyCmd s.cfg st dn v) s = .next (withEvents { s with fq := s.fq.tail } [.ignored st dn v]) := by
  obtain ⟨body, hexec⟩ := exec_classifyCmd s st dn v
  have hignored : onCommand st dn v body (fqPop s) = emit (.ignored st dn v) (fqPop s) := if_pos hst
  rw [hexec, onFrame_ready hready, hignored]
  rfl

/-- An ACK that the peer did not send is popped and completes nothing (45_session_rx.md R222). -/
theorem exec_ack_of_not_peer (hready : frameReady s = true) {st : Station} (hst : st ≠ s.cfg.peerId) :
    exec (.ack st) s = .next (withEvents { s with fq := s.fq.tail } [.strayAck st]) := by
  have hstray : ackEffect st (fqPop s) = emit (.strayAck st) (fqPop s) := if_neg (by simp [hst])
  have hexec : exec (.ack st) s = onFrame (ackEffect st) s := rfl
  rw [hexec, onFrame_ready hready, hstray]
  rfl

end

/-- Settles O49: the ids being different, a station's own command is one for another station, and its own ACK is not the
peer's. -/
theorem echoOfOwnFramesIsHarmless : Obligations.EchoOfOwnFramesIsHarmless := by
  intro s hok hup hroom
  obtain ⟨hown, hpeer, hne⟩ := Config.stations_of_ok hok
  have hready : frameReady s = true := (frameReady_iff s).mpr ⟨hup, hroom⟩
  exact ⟨fun dn v => ⟨_, decode_encodeCmd s.cfg hpeer dn v, exec_classifyCmd_of_not_own hready hne.symm dn v⟩,
    _, decode_encodeAck s.cfg .ack hown, exec_ack_of_not_peer hready hne⟩

end Sys2Proof.Machine
end

section
/-! The resynchronising scanner: its one verdict on the scan position, what each of its steps does with it, and how long
it runs (43_link_scanner.md R190 to R197). -/

namespace Sys2Proof

/-! ## The failures of `DECODE` on a control byte (41_frame_codec.md R133, R134) -/

theorem decodeCmd_ne_malformedFrame (B : List Byte) : decodeCmd B ≠ .error .malformedFrame := by
  unfold decodeCmd
  split
  · dsimp only
    split_ifs <;> simp
  · simp

theorem decodeAck_ne_malformedFrame (k : AckKind) (B : List Byte) : decodeAck k B ≠ .error .malformedFrame := by
  unfold decodeAck
  split
  · split_ifs <;> simp
  · simp

/-- The instruction that a frame's bytes decode to is the row of the frame. -/
theorem decode_of_decodeFrame {B : List Byte} {f : Frame} (h : decodeFrame B = .ok f) (c : Config) :
    decode c B = .ok (classify c f) := by
  simp only [decode, h]

end Sys2Proof

namespace Sys2Proof.Machine

/-! ## Start bytes (43_link_scanner.md R190) -/

section
variable {c : Config} {b : Byte} {n : Nat}

theorem startLen_eq_some_iff :
    startLen c b = some n ↔ (b = ENQ ∧ n = 16) ∨ (b = ACK ∧ n = 5) ∨ (b = NAK ∧ c.scanNak = true ∧ n = 5) := by
  constructor
  · intro h
    unfold startLen at h
    split_ifs at h with henq hack hnak <;> cases h
    · exact .inl ⟨eq_of_beq henq, rfl⟩
    · exact .inr (.inl ⟨eq_of_beq hack, rfl⟩)
    · obtain ⟨hb, hscan⟩ := (Bool.and_eq_true _ _).mp hnak
      exact .inr (.inr ⟨eq_of_beq hb, hscan, rfl⟩)
  · rintro (⟨rfl, rfl⟩ | ⟨rfl, rfl⟩ | ⟨rfl, hscan, rfl⟩)
    · rfl
    · rfl
    · simp [startLen, hscan]

theorem startLen_eq_none (henq : b ≠ ENQ) (hack : b ≠ ACK) (hnak : b = NAK → c.scanNak = false) :
    startLen c b = none := by
  refine Option.eq_none_iff_forall_ne_some.mpr fun n hn => ?_
  rcases startLen_eq_some_iff.mp hn with ⟨hb, -⟩ | ⟨hb, -⟩ | ⟨hb, hscan, -⟩
  · exact henq hb
  · exact hack hb
  · exact Bool.false_ne_true ((hnak hb).symm.trans hscan)

/-- A start byte is a control byte, so `DECODE` never answers `MalformedFrame` on it (43_link_scanner.md R194). -/
theorem decodeFrame_ne_malformedFrame {B : List Byte} (hlen : startLen c b = some n) (hB : B.head? = some b) :
    decodeFrame B ≠ .error .malformedFrame := by
  rcases startLen_eq_some_iff.mp hlen with ⟨rfl, -⟩ | ⟨rfl, -⟩ | ⟨rfl, -, -⟩
  · rw [decodeFrame_of_enq hB]
    exact decodeCmd_ne_malformedFrame B
  · rw [decodeFrame_of_ackByte (k := .ack) hB]
    exact decodeAck_ne_malformedFrame .ack B
  · rw [decodeFrame_of_ackByte (k := .nak) hB]
    exact decodeAck_ne_malformedFrame .nak B

end

/-! ## The verdict on a buffer that is not empty (43_link_scanner.md R191 to R195) -/

section
variable {s : State} {b : Byte} {q : List Byte} {n : Nat} {f : Frame} {e : DecodeError}

theorem verdict_of_not_start (hup : linkUp s = true) (hbuf : s.rxBuf = b :: q) (hlen : startLen s.cfg b = none) :
    verdict s = .skip b := by
  simp [verdict, hup, hbuf, hlen]

theorem verdict_of_short (hup : linkUp s = true) (hbuf : s.rxBuf = b :: q) (hlen : startLen s.cfg b = some n)
    (hshort : s.rxBuf.length < n) : verdict s = .hold := by
  rw [hbuf] at hshort
  simp only [verdict, hup, hbuf, hlen, hshort, if_true]

theorem verdict_of_error (hup : linkUp s = true) (hbuf : s.rxBuf = b :: q) (hlen : startLen s.cfg b = some n)
    (hn : n ≤ s.rxBuf.length) (hdec : decodeFrame (s.rxBuf.take n) = .error e) : verdict s = .reject b e := by
  rw [hbuf] at hn hdec
  simp only [verdict, memRead, hup, hbuf, hlen, hn.not_gt, hdec, List.drop_zero, if_true, if_false]

theorem verdict_of_frame (hup : linkUp s = true) (hbuf : s.rxBuf = b :: q) (hlen : startLen s.cfg b = some n)
    (hn : n ≤ s.rxBuf.length) (hdec : decodeFrame (s.rxBuf.take n) = .ok f) :
    verdict s = if s.cfg.fqDepth ≤ s.fq.length then .stall else .emit f n := by
  rw [hbuf] at hn hdec
  simp only [verdict, memRead, fqFull, decide_eq_true_eq, hup, hbuf, hlen, hn.not_gt, hdec, List.drop_zero, if_true,
    if_false]

/-! ## The three steps of the scanner, by the verdict (43_link_scanner.md R191, R193, R194) -/

theorem sSkip_of_not_enabled (h : scanAction s ≠ some .sSkip) : sSkip s = s := by
  unfold sSkip
  split
  next hv => exact absurd (by rw [scanAction, hv]) h
  next => rfl

theorem sEmit_of_not_enabled (h : scanAction s ≠ some .sEmit) : sEmit s = s := by
  unfold sEmit
  split
  next hv => exact absurd (by rw [scanAction, hv]) h
  next => rfl

theorem sReject_of_not_enabled (h : scanAction s ≠ some .sReject) : sReject s = s := by
  unfold sReject
  split
  next hv => exact absurd (by rw [scanAction, hv]) h
  next => rfl

theorem sSkip_of_verdict (hv : verdict s = .skip b) :
    sSkip s = bufDrop 1 (raise (.malformedFrame b s.scanPc) s) := by
  simp only [sSkip, hv]

theorem sEmit_of_verdict (hv : verdict s = .emit f n) :
    sEmit s = bufDrop n (emit (.frame f s.scanPc) (fqPush f s)) := by
  simp only [sEmit, hv]

theorem sReject_of_verdict (hv : verdict s = .reject b e) :
    sReject s = bufDrop 1 (raise (rejectError b s.scanPc e) s) := by
  simp only [sReject, hv]

/-- A skip and a reject end in the same way: the error is raised and the byte at the scan position goes, alone (the
spec's decision D12). -/
theorem bufDrop_one_raise (hbuf : s.rxBuf = b :: q) (err : Error) :
    bufDrop 1 (raise err s) = withEvents { s with rxBuf := q, scanPc := s.scanPc + 1 } [.error err] := by
  have hdrop : s.rxBuf.drop 1 = q := by rw [hbuf, List.drop_one, List.tail_cons]
  rw [← hdrop]
  rfl

theorem sReject_of_error (hup : linkUp s = true) (hbuf : s.rxBuf = b :: q) (hlen : startLen s.cfg b = some n)
    (hn : n ≤ s.rxBuf.length) (hdec : decodeFrame (s.rxBuf.take n) = .error e) :
    sReject s = withEvents { s with rxBuf := q, scanPc := s.scanPc + 1 } [.error (rejectError b s.scanPc e)] := by
  rw [sReject_of_verdict (verdict_of_error hup hbuf hlen hn hdec), bufDrop_one_raise hbuf]

theorem sEmit_of_frame (hup : linkUp s = true) (hbuf : s.rxBuf = b :: q) (hlen : startLen s.cfg b = some n)
    (hn : n ≤ s.rxBuf.length) (hdec : decodeFrame (s.rxBuf.take n) = .ok f) (hroom : s.fq.length < s.cfg.fqDepth) :
    sEmit s = withEvents
      { s with
        fq := s.fq ++ [f]
        rxBuf := s.rxBuf.drop n
        scanPc := s.scanPc + BitVec.ofNat 32 n } [.frame f s.scanPc] :=
  sEmit_of_verdict ((verdict_of_frame hup hbuf hlen hn hdec).trans (if_neg hroom.not_ge))

end

/-- Settles O44: each premise fixes the verdict, and the verdict names the one step that is enabled; the other two
change nothing. -/
theorem scannerTakesExactlyItsEnabledStep : Obligations.ScannerTakesExactlyItsEnabledStep := by
  intro s b q hup hbuf
  refine ⟨fun henq hack hnak => ?_, fun n hstart => ?_⟩
  · have hv := verdict_of_not_start hup hbuf (startLen_eq_none henq hack hnak)
    have hskip : scanAction s = some .sSkip := by rw [scanAction, hv]
    refine ⟨?_, sEmit_of_not_enabled (by simp [hskip]), sReject_of_not_enabled (by simp [hskip])⟩
    rw [sSkip_of_verdict hv, bufDrop_one_raise hbuf]
  have hlen : startLen s.cfg b = some n := startLen_eq_some_iff.mpr hstart
  have hhead : (s.rxBuf.take n).head? = some b := by
    rw [List.head?_take, if_neg (startLen_pos hlen).ne', hbuf, List.head?_cons]
  have hhold (hshort : s.rxBuf.length < n) : scanAction s = none := by
    rw [scanAction, verdict_of_short hup hbuf hlen hshort]
  have hframe (hn : n ≤ s.rxBuf.length) {f : Frame} (hdec : decodeFrame (s.rxBuf.take n) = .ok f) :
      scanAction s = if s.cfg.fqDepth ≤ s.fq.length then none else some .sEmit := by
    rw [scanAction, verdict_of_frame hup hbuf hlen hn hdec]
    split_ifs <;> rfl
  have hreject (hn : n ≤ s.rxBuf.length) {e : DecodeError} (hdec : decodeFrame (s.rxBuf.take n) = .error e) :
      scanAction s = some .sReject := by
    rw [scanAction, verdict_of_error hup hbuf hlen hn hdec]
  refine ⟨sSkip_of_not_enabled ?_, fun hshort => ?_, fun hn => ⟨fun f hdec => ?_, fun e hdec => ?_, ?_⟩⟩
  · rcases Nat.lt_or_ge s.rxBuf.length n with hshort | hn
    · simp [hhold hshort]
    · cases hdec : decodeFrame (s.rxBuf.take n) with
      | ok f => rw [hframe hn hdec]; split_ifs <;> simp
      | error e => simp [hreject hn hdec]
  · exact ⟨sEmit_of_not_enabled (by simp [hhold hshort]), sReject_of_not_enabled (by simp [hhold hshort])⟩
  · refine ⟨sReject_of_not_enabled ?_, fun hfull => sEmit_of_not_enabled ?_, sEmit_of_frame hup hbuf hlen hn hdec⟩
    · rw [hframe hn hdec]; split_ifs <;> simp
    · simp [hframe hn hdec, hfull]
  · exact sEmit_of_not_enabled (by simp [hreject hn hdec])
  · exact ⟨sReject_of_error hup hbuf hlen hn, fun _ _ => sReject_of_error hup hbuf hlen hn,
      sReject_of_error hup hbuf hlen hn, decodeFrame_ne_malformedFrame hlen hhead⟩

/-! ## Progress (43_link_scanner.md R197) -/

/-- There is a verdict with a step only on a buffer that is not empty. -/
theorem scanAction_of_empty {s : State} (hbuf : s.rxBuf = []) : scanAction s = none := by
  cases hup : linkUp s <;> simp [scanAction, verdict, hup, hbuf]

/-- The scanner rests, or its step drops one or more bytes. -/
theorem scanStep_cases (s : State) :
    (scanAction s = none ∧ scanStep s = s)
      ∨ (scanAction s ≠ none ∧ ∃ n, 0 < n ∧ (scanStep s).rxBuf = s.rxBuf.drop n) := by
  cases hv : verdict s with
  | skip b =>
    exact .inr ⟨by simp [scanAction, hv], 1, Nat.one_pos, by simp [scanStep, hv, sSkip_of_verdict hv]⟩
  | reject b e =>
    exact .inr ⟨by simp [scanAction, hv], 1, Nat.one_pos, by simp [scanStep, hv, sReject_of_verdict hv]⟩
  | emit f n =>
    obtain ⟨-, -, b, -, hlen, -⟩ := verdict_emit hv
    exact .inr ⟨by simp [scanAction, hv], n, startLen_pos hlen, by simp [scanStep, hv, sEmit_of_verdict hv]⟩
  | off | empty | hold | stall => exact .inl ⟨by simp [scanAction, hv], by simp [scanStep, hv]⟩

theorem length_scanStep_lt {s : State} (h : scanAction s ≠ none) : (scanStep s).rxBuf.length < s.rxBuf.length := by
  obtain ⟨-, n, hn, hdrop⟩ := (scanStep_cases s).resolve_left fun hrest => h hrest.1
  rw [hdrop, List.length_drop]
  exact Nat.sub_lt (List.length_pos_iff.mpr (mt scanAction_of_empty h)) hn

theorem scanStep_of_rest {s : State} (h : scanAction s = none) : scanStep s = s := by
  rcases scanStep_cases s with ⟨-, hsame⟩ | ⟨hsome, -⟩
  · exact hsame
  · exact absurd h hsome

theorem scanSteps_of_rest {s : State} (h : scanAction s = none) (n : Nat) : scanSteps n s = s := by
  induction n with
  | zero => rfl
  | succ n ih => rw [scanSteps, scanStep_of_rest h, ih]

/-- As many steps as the buffer holds bytes are enough, and more do no harm. -/
theorem scanAction_scanSteps {n : Nat} {s : State} (hn : s.rxBuf.length ≤ n) : scanAction (scanSteps n s) = none := by
  induction n generalizing s with
  | zero => exact scanAction_of_empty (List.length_eq_zero_iff.mp (Nat.le_zero.mp hn))
  | succ n ih =>
    by_cases hrest : scanAction s = none
    · rw [scanSteps_of_rest hrest, hrest]
    · exact ih (Nat.le_of_lt_succ ((length_scanStep_lt hrest).trans_le hn))

/-- Settles O45: a step drops a byte at least, so the buffer's length bounds the steps. -/
theorem scannerComesToRest : Obligations.ScannerComesToRest :=
  ⟨fun _ => length_scanStep_lt, fun _ => scanAction_scanSteps le_rfl⟩

/-! ## From the scanner to the session (43_link_scanner.md R193, 45_session_rx.md R221) -/

theorem xFrame_of_head {s : State} {f : Frame} {q : List Frame} (hfq : s.fq = f :: q) :
    xFrame s = exec (classify s.cfg f) s := by
  simp only [xFrame, hfq]

theorem step_of_sched_xFrame {s : State} {r : List Action} {f : Frame} {q : List Frame} (h : s.sched = .xFrame :: r)
    (hfq : s.fq = f :: q) :
    step s = exec (classify s.cfg f) { s with sched := r, phase := .session, hostReply := none } := by
  rw [step_of_sched h, beginStep_of_sched h]
  exact xFrame_of_head (s := { s with sched := r, phase := .session, hostReply := none }) hfq

/-- Settles O11: the bytes' verdict is `emit` of the frame they decode to, `S-EMIT` puts it at the head of the empty
queue, and `X-FRAME` executes the row of that head, which is what the bytes decode to. -/
theorem frameBytesRunAsDecoded : Obligations.FrameBytesRunAsDecoded := by
  intro s b B q n f i r hup hbuf hlen hn hframe hdecode hfq hdepth hsched
  subst hn
  have htake : s.rxBuf.take (b :: B).length = b :: B := by rw [hbuf, List.take_left]
  have hdrop : s.rxBuf.drop (b :: B).length = q := by rw [hbuf, List.drop_left]
  have hle : (b :: B).length ≤ s.rxBuf.length := by rw [hbuf, List.length_append]; exact Nat.le_add_right _ _
  have hi : classify s.cfg f = i := Except.ok.inj ((decode_of_decodeFrame hframe s.cfg).symm.trans hdecode)
  have hemit : sEmit (beginStep s) = withEvents
      { beginStep s with
        fq := s.fq ++ [f]
        rxBuf := s.rxBuf.drop (b :: B).length
        scanPc := s.scanPc + BitVec.ofNat 32 (b :: B).length } [.frame f s.scanPc] :=
    sEmit_of_frame (s := beginStep s) hup hbuf hlen hle (htake.symm ▸ hframe) (hfq ▸ hdepth)
  refine ⟨_, (step_of_sched hsched).trans ((congrArg _ hemit).trans ?_), rfl, ?_⟩
  · rw [hfq, hdrop, beginStep_of_sched hsched]
    rfl
  · exact hi ▸ step_of_sched_xFrame (q := []) rfl rfl

end Sys2Proof.Machine
end

section
/-! The link supervisor: the reconnect delays, and each of its steps where it is enabled and where it is not
(43_link_scanner.md R172 to R187). -/

namespace Sys2Proof.Machine

/-! ## The reconnect delays (43_link_scanner.md R181) -/

theorem toNat_nextDelay {c : Config} (hc : c.ok = true) (d : W32) :
    (nextDelay c d).toNat = min c.backoffMax (max c.backoffMin (2 * d.toNat)) := by
  obtain ⟨hmax, -, -, -⟩ := config_ok_bounds hc
  rw [nextDelay, BitVec.toNat_ofNat, Nat.mod_eq_of_lt (by omega)]

theorem toNat_delayAfter {c : Config} (hc : c.ok = true) (n : Nat) :
    (delayAfter c n).toNat = min c.backoffMax (c.backoffMin * 2 ^ n) := by
  obtain ⟨hmax, hle, -, -⟩ := config_ok_bounds hc
  induction n with
  | zero => rw [delayAfter, BitVec.toNat_ofNat, Nat.mod_eq_of_lt (by omega), pow_zero, mul_one, min_eq_right hle]
  | succ n ih =>
    have hgrows : c.backoffMin ≤ c.backoffMin * 2 ^ n := Nat.le_mul_of_pos_right _ (Nat.two_pow_pos n)
    have hdouble : c.backoffMin * 2 ^ (n + 1) = 2 * (c.backoffMin * 2 ^ n) := by rw [pow_succ]; ac_rfl
    rw [delayAfter, toNat_nextDelay hc, ih, hdouble]
    omega

/-- Settles O39: doubling commutes with the cap, and no delay in between is below `BACKOFF_MIN`. -/
theorem backoffDoublesUpToItsCap : Obligations.BackoffDoublesUpToItsCap := by
  refine fun c hc => ⟨toNat_delayAfter hc, ?_⟩
  obtain ⟨-, hle, -, -⟩ := config_ok_bounds hc
  rw [toNat_nextDelay hc, show (0 : W32).toNat = 0 from rfl]
  omega

/-! ## Events -/

theorem emit_emit (e e' : Event) (s : State) : emit e' (emit e s) = withEvents s [e, e'] := by
  simp [emit, withEvents]

section
variable {s : State}

/-! ## Opening the device (43_link_scanner.md R172 to R174) -/

theorem lOpenEnabled_iff :
    lOpenEnabled s = true ↔
      s.linkState = .disconnected ∧ s.linkEnable = true ∧ s.backoffDelay ≤ elapsed s s.backoffT0 := by
  simp only [lOpenEnabled, Bool.and_eq_true, beq_iff_eq, decide_eq_true_eq, and_assoc]

theorem lOpen_of_not_enabled (h : ¬ lOpenEnabled s = true) : lOpen s = s := if_neg h

theorem lOpen_of_enabled (h : lOpenEnabled s = true) :
    lOpen s = withEvents { s with linkState := .connecting, devOut := s.devOut ++ [.openReq] }
      [.openAttempt (s.attemptCnt.setWidth 32 + 1)] := if_pos h

theorem devOpenOk_of_not_connecting (h : s.linkState ≠ .connecting) : devOpenOk s = s := if_neg h

theorem devOpenOk_of_connecting (h : s.linkState = .connecting) :
    devOpenOk s = withEvents
      { s with
        linkState := .connected
        failCnt := 0
        attemptCnt := 0
        backoffDelay := 0
        rxBuf := []
        scanPc := 0
        lastRxTime := s.now } [.linkUp] := if_pos h

theorem toNat_failedAttempt : (failedAttempt s).toNat = min (s.attemptCnt.toNat + 1) (2 ^ 16 - 1) := by
  unfold failedAttempt
  split
  next hmax => rw [hmax]; rfl
  next hmax =>
    have hne : s.attemptCnt.toNat ≠ 0xFFFF := fun h => hmax (BitVec.eq_of_toNat_eq h)
    have hlt := s.attemptCnt.isLt
    have hsucc : (s.attemptCnt + 1).toNat = s.attemptCnt.toNat + 1 := BitVec.toNat_add_of_lt (y := 1) (by simp; omega)
    omega

theorem capReached_iff {c : Config} {k : W16} :
    capReached c k = true ↔ ∃ m, c.maxReconnect = some m ∧ m ≤ k.toNat := by
  cases hm : c.maxReconnect <;> simp [capReached, hm]

theorem devOpenFail_of_not_connecting (h : s.linkState ≠ .connecting) : devOpenFail s = s := if_neg h

theorem devOpenFail_below_cap (h : s.linkState = .connecting) (hcap : ¬ capReached s.cfg (failedAttempt s) = true) :
    devOpenFail s = withEvents
      { s with
        linkState := .disconnected
        attemptCnt := failedAttempt s
        backoffDelay := nextDelay s.cfg s.backoffDelay
        backoffT0 := s.now } [.openFail (failedAttempt s)] :=
  (if_pos h).trans (if_neg hcap)

theorem devOpenFail_at_cap (h : s.linkState = .connecting) (hcap : capReached s.cfg (failedAttempt s) = true) :
    devOpenFail s = withEvents
      { s with linkState := .disconnected, attemptCnt := failedAttempt s, linkEnable := false }
      [.openFail (failedAttempt s), .error (.maxReconnectExceeded (failedAttempt s))] := by
  refine ((if_pos h).trans (if_pos hcap)).trans ?_
  simp [raise, emit, withEvents]

/-! ## The loss of the link (43_link_scanner.md R182, R186, R187) -/

theorem linkDown_eq_afterLinkDown (cause : LinkCause) (s : State) : linkDown cause s = afterLinkDown cause s := by
  rw [linkDown_eq]
  cases hp : s.pendValid <;> by_cases hi : s.sessState = .idle <;>
    simp [afterLinkDown, quieten, setSess, cancelExchange, flushQueues, endExchange, emit, pulse, hp, hi]

theorem devError_of_up (hup : linkUp s = true) :
    devError s = afterLinkDown .device (withEvents s [.error (.linkIOError .device)]) :=
  (if_pos hup).trans (linkDown_eq_afterLinkDown _ _)

theorem devError_of_connecting (h : s.linkState = .connecting) : devError s = devOpenFail s := by
  have hdown : linkUp s = false := (linkUp_false_iff s).mpr (.inr h)
  simp only [devError, hdown, h, Bool.false_eq_true, if_true, if_false]

theorem devError_of_disconnected (h : s.linkState = .disconnected) : devError s = s := by
  have hdown : linkUp s = false := (linkUp_false_iff s).mpr (.inl h)
  simp [devError, hdown, h]

theorem lIdleEnabled_iff :
    lIdleEnabled s = true ↔
      linkUp s = true ∧ ∃ T, s.cfg.idleTimeout = some T ∧ T < (elapsed s s.lastRxTime).toNat := by
  cases hT : s.cfg.idleTimeout <;> simp [lIdleEnabled, idleExpired, hT]

theorem lIdle_of_not_enabled (h : ¬ lIdleEnabled s = true) : lIdle s = s := if_neg h

theorem lIdle_of_enabled (h : lIdleEnabled s = true) :
    lIdle s = afterLinkDown .idle (withEvents s [.error (.idleTimeout (s.now - s.lastRxTime))]) :=
  (if_pos h).trans (linkDown_eq_afterLinkDown _ _)

/-! ## Received characters (43_link_scanner.md R183 to R185) -/

theorem rxChar_of_down (hdown : linkUp s = false) (b : Byte) (perr ferr : Bool) : rxChar b perr ferr s = s := by
  simp [rxChar, hdown]

theorem rxChar_of_charError (hup : linkUp s = true) (b : Byte) {perr ferr : Bool} (herr : (perr || ferr) = true) :
    rxChar b perr ferr s = softFail (raise (.rxCharError b perr ferr) { s with lastRxTime := s.now }) :=
  (if_pos hup).trans (if_pos herr)

theorem rxChar_of_full (hup : linkUp s = true) (b : Byte) (hfull : s.cfg.rxbufSize ≤ s.rxBuf.length) :
    rxChar b false false s = softFail (raise (.rxOverrun b) { s with lastRxTime := s.now }) :=
  (if_pos hup).trans (if_pos hfull)

/-- Over a link that is up, Degraded or not, a good character leaves it Connected. -/
theorem clearFailures_of_up (hup : linkUp s = true) :
    clearFailures s = { s with failCnt := 0, linkState := .connected } := by
  rcases (linkUp_iff s).mp hup with h | h <;> simp [clearFailures, h]

theorem rxChar_of_good (hup : linkUp s = true) (b : Byte) (hroom : s.rxBuf.length < s.cfg.rxbufSize) :
    rxChar b false false s =
      { s with lastRxTime := s.now, rxBuf := s.rxBuf ++ [b], failCnt := 0, linkState := .connected } := by
  have hclear : rxChar b false false s = clearFailures (bufAppend b { s with lastRxTime := s.now }) :=
    (if_pos hup).trans (if_neg hroom.not_ge)
  exact hclear.trans (clearFailures_of_up hup)

theorem softFail_below_limit (h : s.failCnt.toNat + 1 < s.cfg.failLimit) :
    softFail s = { s with failCnt := s.failCnt + 1, linkState := .degraded } := if_neg h.not_ge

theorem softFail_at_limit (h : s.cfg.failLimit ≤ s.failCnt.toNat + 1) :
    softFail s = afterLinkDown .failLimit (raise (.linkIOError .failLimit) s) :=
  (if_pos h).trans (linkDown_eq_afterLinkDown _ _)

end

/-! ## The steps of the schedule -/

/-- Settles O36: the two cases of `L-OPEN`, on the state that `beginStep` leaves. -/
theorem openAttemptAfterBackoff : Obligations.OpenAttemptAfterBackoff := by
  intro s r hsched
  rw [step_of_sched hsched]
  split
  next hopen => exact congrArg _ (lOpen_of_enabled (s := beginStep s) (lOpenEnabled_iff.mpr hopen))
  next hopen => exact congrArg _ (lOpen_of_not_enabled (s := beginStep s) (mt lOpenEnabled_iff.mp hopen))

/-- Settles O37: `DevOpenOk` acts in Connecting alone. -/
theorem deviceOpens : Obligations.DeviceOpens := by
  intro s r hsched
  rw [step_of_sched hsched]
  split
  next hconn => exact congrArg _ (devOpenOk_of_connecting (s := beginStep s) hconn)
  next hconn => exact congrArg _ (devOpenOk_of_not_connecting (s := beginStep s) hconn)

/-- Settles O38: the attempt that failed is the saturated successor, and the cap is compared with it. -/
theorem deviceOpenFails : Obligations.DeviceOpenFails := by
  refine fun s r hsched => ⟨fun hconn => ?_, fun hconn k hk => ?_⟩
  · rw [step_of_sched hsched]
    exact congrArg _ (devOpenFail_of_not_connecting (s := beginStep s) hconn)
  obtain rfl : k = failedAttempt s := BitVec.eq_of_toNat_eq (hk.trans toNat_failedAttempt.symm)
  rw [step_of_sched hsched]
  refine ⟨fun hbelow => ?_, fun m hm hle => ?_⟩
  · have hcap : ¬ capReached s.cfg (failedAttempt s) = true := fun hcap => by
      obtain ⟨m, hm, hle⟩ := capReached_iff.mp hcap
      exact (hbelow m hm).not_ge hle
    exact congrArg _ (devOpenFail_below_cap (s := beginStep s) hconn hcap)
  · exact congrArg _ (devOpenFail_at_cap (s := beginStep s) hconn (capReached_iff.mpr ⟨m, hm, hle⟩))

/-- Settles O40: one case for each link state. While Connecting the two steps compared begin from the same state, since
`DevError` and `DevOpenFail` leave the same turn, and `DevError` is then a failure of the opening. -/
theorem deviceErrorTakesTheLinkDown : Obligations.DeviceErrorTakesTheLinkDown := by
  refine fun s r hsched => ⟨fun hup => ?_, fun hconn => ?_, fun hdisc => ?_⟩
  · rw [step_of_sched hsched]
    exact congrArg _ (devError_of_up (s := beginStep s) hup)
  · have hbegin : beginStep { s with sched := .devOpenFail :: r } = beginStep s := by
      rw [beginStep_of_sched hsched, beginStep_of_sched rfl]
      rfl
    rw [step_of_sched hsched, step_of_sched (s := { s with sched := .devOpenFail :: r }) rfl, hbegin]
    exact congrArg _ (devError_of_connecting (s := beginStep s) hconn)
  · rw [step_of_sched hsched]
    exact congrArg _ (devError_of_disconnected (s := beginStep s) hdisc)

/-- Settles O41: no parity flag is taken where none was given, so the character is good for every `PARITY`. -/
theorem goodCharacterIsAppended : Obligations.GoodCharacterIsAppended := by
  intro s b r hsched
  rw [step_of_sched hsched]
  exact ⟨fun hdown => congrArg _ (rxChar_of_down (s := beginStep s) hdown b false false),
    fun hup hroom => congrArg _ (rxChar_of_good (s := beginStep s) hup b hroom)⟩

/-- Settles O42: each of the three kinds of failure raises its error and is then one soft failure. -/
theorem softFailuresCountToTheLimit : Obligations.SoftFailuresCountToTheLimit := by
  intro s b p f r e hsched hup hkind
  have hsoft : rxChar b (receivedPerr s.cfg p) f (beginStep s)
      = softFail (raise e { beginStep s with lastRxTime := s.now }) := by
    rcases hkind with ⟨rfl, rfl⟩ | ⟨rfl, hparity, rfl⟩ | ⟨rfl, rfl, hfull, rfl⟩
    · exact rxChar_of_charError (s := beginStep s) hup b (Bool.or_true _)
    · have hperr : receivedPerr s.cfg true = true := by simp [receivedPerr, hparity]
      rw [hperr]
      exact rxChar_of_charError (s := beginStep s) hup b (Bool.true_or f)
    · exact rxChar_of_full (s := beginStep s) hup b hfull
  rw [step_of_sched hsched]
  refine ⟨fun hbelow => congrArg _ (hsoft.trans ?_), fun hlimit => congrArg _ (hsoft.trans ?_)⟩
  · exact softFail_below_limit (s := raise e { beginStep s with lastRxTime := s.now }) hbelow
  · rw [softFail_at_limit (s := raise e { beginStep s with lastRxTime := s.now }) hlimit]
    exact congrArg _ (emit_emit ..)

/-- Settles O43: the comparison of `L-IDLE` is strict, and each way to miss it leaves the step not enabled. -/
theorem idleLineRecyclesTheLink : Obligations.IdleLineRecyclesTheLink := by
  intro s r hsched
  rw [step_of_sched hsched]
  refine ⟨fun T hT hup hlate => ?_, fun hoff => ?_⟩
  · exact congrArg _ (lIdle_of_enabled (s := beginStep s) (lIdleEnabled_iff.mpr ⟨hup, T, hT, hlate⟩))
  · have hnot : ¬ lIdleEnabled s = true := fun hen => by
      obtain ⟨hup, T, hT, hlate⟩ := lIdleEnabled_iff.mp hen
      rcases hoff with hnone | hdown | ⟨U, hU, hle⟩
      · cases hT.symm.trans hnone
      · exact Bool.false_ne_true (hdown.symm.trans hup)
      · cases hT.symm.trans hU
        exact hlate.not_ge hle
    exact congrArg _ (lIdle_of_not_enabled (s := beginStep s) hnot)

end Sys2Proof.Machine
end

section
/-! The Deduplicator: when `IS_DUPLICATE` answers true and what it leaves in the table (44_dedup.md R210 to R214). -/

namespace Sys2Proof.Machine

/-! ## The answer -/

/-- The answer is true in arm (c) alone: an entry inside the window that holds the same value (44_dedup.md R211). -/
theorem isDuplicate_iff {s : State} {dn v : W16} :
    isDuplicate dn v s = true
      ↔ ∃ t0, dedupRead s.dedup dn = some (v, t0) ∧ (elapsed s t0).toNat ≤ s.cfg.dedupWindow := by
  unfold isDuplicate
  cases hread : dedupRead s.dedup dn with
  | none => simp
  | some entry =>
    obtain ⟨v0, t0⟩ := entry
    by_cases hlate : s.cfg.dedupWindow < (elapsed s t0).toNat
    · simp [hlate]
    · simp [hlate, Nat.le_of_not_lt hlate]

theorem isDuplicate_eq_false_iff {s : State} {dn v : W16} :
    isDuplicate dn v s = false
      ↔ ∀ t0, dedupRead s.dedup dn = some (v, t0) → s.cfg.dedupWindow < (elapsed s t0).toNat := by
  rw [← Bool.not_eq_true, isDuplicate_iff]
  simp only [not_exists, not_and, Nat.not_le]

/-! ## The table after it -/

theorem dedupUpdate_of_duplicate {s : State} {dn v : W16} (h : isDuplicate dn v s = true) : dedupUpdate dn v s = s :=
  if_pos h

theorem dedupRead_dedupUpdate_of_fresh {s : State} {dn v : W16} (h : isDuplicate dn v s = false) :
    dedupRead (dedupUpdate dn v s).dedup dn = some (v, s.now) := by
  obtain ⟨hdup, -⟩ | ⟨-, hwrite⟩ := dedupUpdate_cases dn v s
  · exact absurd (h.symm.trans hdup) Bool.false_ne_true
  · rw [hwrite, dedupRead_write_same]

theorem dedupRead_dedupUpdate_other (s : State) {dn d : W16} (v : W16) (h : d ≠ dn) :
    dedupRead (dedupUpdate dn v s).dedup d = dedupRead s.dedup d := by
  obtain ⟨-, hkeep⟩ | ⟨-, hwrite⟩ := dedupUpdate_cases dn v s
  · rw [hkeep]
  · rw [hwrite, dedupRead_write_other s.dedup v s.now h]

/-- The table is all that `IS_DUPLICATE` writes. -/
theorem dedupUpdate_frame (dn v : W16) (s : State) :
    dedupUpdate dn v s = { s with dedup := (dedupUpdate dn v s).dedup } := by
  unfold dedupUpdate
  split <;> rfl

/-- Settles O34: arm (c) answers true, arms (a), (b) and (d) answer false, and what each answer does to the table does not
depend on the arm. -/
theorem dedupFourArms : Obligations.DedupFourArms := by
  intro s dn v
  have fresh (h : isDuplicate dn v s = false) :
      isDuplicate dn v s = false ∧ dedupRead (dedupUpdate dn v s).dedup dn = some (v, s.now) :=
    ⟨h, dedupRead_dedupUpdate_of_fresh h⟩
  refine ⟨fun hnone => ?_, fun v0 t0 hentry => ⟨fun hlate => ?_, fun hin hsame => ?_, fun _ hne => ?_⟩,
    fun _ hother => dedupRead_dedupUpdate_other s v hother, dedupUpdate_frame dn v s⟩
  · refine fresh (isDuplicate_eq_false_iff.mpr fun t hread => ?_)
    cases hnone.symm.trans hread
  · refine fresh (isDuplicate_eq_false_iff.mpr fun t hread => ?_)
    cases hentry.symm.trans hread
    exact hlate
  · have hdup : isDuplicate dn v s = true := isDuplicate_iff.mpr ⟨t0, hsame ▸ hentry, hin⟩
    exact ⟨hdup, dedupUpdate_of_duplicate hdup⟩
  · refine fresh (isDuplicate_eq_false_iff.mpr fun t hread => ?_)
    cases hentry.symm.trans hread
    exact absurd rfl hne

/-! ## A repeat -/

/-- Below 2^32 ticks the modular clock tells the true time since `t` (44_dedup.md R211, corner case 3). -/
theorem toNat_elapsed_of_lt {s : State} {t : W32} {k : Nat} (hnow : s.now = t + BitVec.ofNat 32 k) (hk : k < 2 ^ 32) :
    (elapsed s t).toNat = k := by
  have hdiff : elapsed s t = BitVec.ofNat 32 k := by rw [elapsed, hnow, BitVec.add_comm, BitVec.add_sub_cancel]
  rw [hdiff, BitVec.toNat_ofNat, Nat.mod_eq_of_lt hk]

/-- Settles O35: the first frame leaves its value and its time in the table, so a repeat `k` ticks later finds its own
value in an entry of age `k`. -/
theorem repeatIsDuplicateUntilTheWindowLapses : Obligations.RepeatIsDuplicateUntilTheWindowLapses := by
  intro s dn v k _ hfresh hk
  have hentry := dedupRead_dedupUpdate_of_fresh hfresh
  have hage : (elapsed { dedupUpdate dn v s with now := s.now + BitVec.ofNat 32 k } s.now).toNat = k :=
    toNat_elapsed_of_lt rfl hk
  rw [isDuplicate_iff]
  constructor
  · rintro ⟨t0, hread, hin⟩
    cases hentry.symm.trans hread
    rwa [hage, dedupUpdate_cfg] at hin
  · intro hin
    refine ⟨s.now, hentry, ?_⟩
    rwa [hage, dedupUpdate_cfg]

end Sys2Proof.Machine
end

section
/-! What decodes from bytes is well formed (20_memory.md R65, 30_encoding.md R104, R107, 45_session_rx.md R228). -/

namespace Sys2Proof

section
variable {c : Config} {st : Station} {dn : W16}

/-- Where the value chooses between rows, the row without a value of its own gets only the other values
(30_encoding.md R107). -/
theorem classifyCmd_wf_of_base (hst : st.isDigits = true) (v : W16) (hbase : dn ∈ baseDns) :
    (classifyCmd c st dn v).wf c = true := by
  simp only [baseDns, List.mem_cons, List.not_mem_nil, or_false] at hbase
  rcases hbase with rfl | rfl | rfl | rfl | rfl
  · exact hst
  · by_cases hv : v = 0x0000
    · exact hv ▸ hst
    · rw [classifyCmd_tgtFloor hv]
      exact Bool.and_eq_true_iff.mpr ⟨hst, bne_iff_ne.mpr hv⟩
  · exact hst
  · exact hst
  · have hdoor : v = 0x0000 ∨ v = 0x0001 ∨ v = 0x0002 ∨ 0x0002 < v := by bv_omega
    rcases hdoor with rfl | rfl | rfl | hv
    · exact hst
    · exact hst
    · exact hst
    · rw [classifyCmd_doorCtl hv]
      exact Bool.and_eq_true_iff.mpr ⟨hst, decide_eq_true hv⟩

theorem wf_of_handshakeRow (hst : st.isDigits = true) (hen : c.handshakeEn = true) {row : Station → W16 → Instr}
    (hrow : (dn, row) ∈ c.handshakeRows) (v : W16) : (row st v).wf c = true := by
  have hwf : (st.isDigits && c.handshakeEn) = true := Bool.and_eq_true_iff.mpr ⟨hst, hen⟩
  simp only [Config.handshakeRows, List.mem_cons, List.not_mem_nil, or_false, Prod.mk.injEq] at hrow
  rcases hrow with ⟨-, rfl⟩ | ⟨-, rfl⟩ | ⟨-, rfl⟩ | ⟨-, rfl⟩ | ⟨-, rfl⟩ | ⟨-, rfl⟩ | ⟨-, rfl⟩ | ⟨-, rfl⟩
  all_goals exact hwf

/-- The converse of `Config.lookup_handshakeRows_eq_none`: the dispatch misses no data number of the registry. -/
theorem Config.not_mem_handshakeDns_of_lookup (hnone : c.handshakeRows.lookup dn = none) : dn ∉ c.handshakeDns := by
  intro hdn
  obtain ⟨p, hp, rfl⟩ := List.mem_map.mp (c.handshakeRows_keys_perm.mem_iff.mpr hdn)
  exact bne_iff_ne.mp (List.lookup_eq_none_iff.mp hnone p hp) rfl

/-- Every row that the dispatch of R228 gives is in force, whatever the configuration, even one that gives two rows the
same data number. -/
theorem classifyCmd_wf (hst : st.isDigits = true) (dn v : W16) : (classifyCmd c st dn v).wf c = true := by
  by_cases hbase : dn ∈ baseDns
  · exact classifyCmd_wf_of_base hst v hbase
  cases hen : c.handshakeEn with
  | false =>
    rw [classifyCmd_of_handshake_off st v hbase hen]
    simp [Instr.wf, Config.knownDn, hst, hbase, hen]
  | true =>
    rw [classifyCmd_of_not_base st v hbase hen]
    cases hlookup : c.handshakeRows.lookup dn with
    | none =>
      have hdn : dn ∉ c.handshakeDns := Config.not_mem_handshakeDns_of_lookup hlookup
      simp [Instr.wf, Config.knownDn, hst, hbase, hdn]
    | some row =>
      obtain ⟨before, after, hsplit, -⟩ := List.lookup_eq_some_iff.mp hlookup
      have hrow : (dn, row) ∈ c.handshakeRows := by simp [hsplit]
      exact wf_of_handshakeRow hst hen hrow v

theorem classify_wf {f : Frame} (hf : f.wf = true) : (classify c f).wf c = true := by
  cases f with
  | cmd st dn v => exact classifyCmd_wf hf dn v
  | ackFrame k st => cases k <;> exact hf

end

/-- What `DECODE` passes has four digits in its station field (20_memory.md R65). -/
theorem wf_of_decodeFrame {B : List Byte} {f : Frame} (h : decodeFrame B = .ok f) : f.wf = true := by
  cases B with
  | nil => cases h
  | cons b B =>
    obtain ⟨_, _, _, rfl, hst⟩ | ⟨_, rfl, hst⟩ | ⟨-, _, rfl, hst⟩ := Machine.decodeFrame_ok h
    all_goals exact hst

/-- Settles O3: the bytes decode to a well-formed frame, and its dispatch gives a row of the wire that is in force. -/
theorem decodedInstructionIsWellFormed : Obligations.DecodedInstructionIsWellFormed := by
  intro c B i hdecode
  cases hframe : decodeFrame B with
  | error e => simp [decode, hframe] at hdecode
  | ok f =>
    have hi : classify c f = i := Except.ok.inj ((decode_of_decodeFrame hframe c).symm.trans hdecode)
    exact hi ▸ ⟨classify_wf (wf_of_decodeFrame hframe), Machine.classify_isHostOp c f⟩

end Sys2Proof
end

section
/-! What every received frame has in common: it waits or is executed, and a CommandFrame is ignored, suppressed or goes
on to its own effect, behind the role check where its row has one (45_session_rx.md R220 to R227, R237). -/

namespace Sys2Proof

/-- The premises on the parameters let no other row hide a handshake row (00_scope.md R7). -/
theorem classifyCmd_of_handshakeRow {c : Config} {st : Station} {dn v : W16} (hok : c.ok = true)
    (hen : c.handshakeEn = true) {row : Station → W16 → Instr} (hrow : (dn, row) ∈ c.handshakeRows) :
    classifyCmd c st dn v = row st v := by
  obtain ⟨-, houtside⟩ := Config.handshakeDns_of_ok hok
  have hbase : dn ∉ baseDns := houtside dn (Config.mem_handshakeDns_of_row hrow)
  rw [classifyCmd_of_not_base st v hbase hen, Config.lookup_handshakeRows hok hrow]
  rfl

end Sys2Proof

namespace Sys2Proof.Machine

section
variable {s : State} {st : Station} {dn v : W16}

/-! ## A frame waits or is executed (45_session_rx.md R220) -/

theorem frameReady_eq_false_iff : frameReady s = false ↔ linkUp s = false ∨ s.cfg.txqDepth < s.txq.length + 2 := by
  rw [← Bool.not_eq_true, frameReady_iff, not_and_or, Bool.not_eq_true, Nat.not_le]

/-- Every frame is executed by one `X-FRAME` step, whatever its row. -/
theorem exec_classify (s : State) (f : Frame) : ∃ body, exec (classify s.cfg f) s = onFrame body s := by
  cases f with
  | cmd st dn v =>
    obtain ⟨body, hexec⟩ := exec_classifyCmd s st dn v
    exact ⟨_, hexec⟩
  | ackFrame k st => cases k <;> exact ⟨_, rfl⟩

/-! ## The acknowledgement and the dedup entry (45_session_rx.md R226, R227) -/

theorem sendAck_of_up (hup : linkUp s = true) :
    sendAck s = withEvents { s with txq := s.txq ++ [encodeAck .ack s.cfg.ownId] } [.ackSent] := by
  rw [sendAck, send_up hup]
  rfl

/-- The acknowledgement writes nothing that `IS_DUPLICATE` reads. -/
theorem isDuplicate_sendAck (hup : linkUp s = true) (dn v : W16) :
    isDuplicate dn v (sendAck s) = isDuplicate dn v s := by
  rw [sendAck_of_up hup]
  rfl

theorem dedupUpdate_of_fresh (hnew : isDuplicate dn v s = false) :
    dedupUpdate dn v s = { s with dedup := dedupWrite s.dedup dn v s.now } := by
  simp [dedupUpdate, hnew]

/-! ## What a CommandFrame does where it is executed -/

theorem Fresh.ready (h : Fresh s st dn v) : frameReady s = true := (frameReady_iff s).mpr ⟨h.up, h.room⟩

/-- A frame that is executed runs its own effect on the state that the common part leaves. -/
theorem onCommand_of_fresh (h : Fresh s st dn v) (body : State → State) :
    onFrame (onCommand st dn v body) s = .next (body (afterReport s dn v)) := by
  have hown : st = (fqPop s).cfg.ownId := h.addressed
  have hnew : isDuplicate dn v (fqPop s) = false := h.notDuplicate
  have hcommon : emit (.report dn v) (dedupUpdate dn v (sendAck (fqPop s))) = afterReport s dn v := by
    have hsent : isDuplicate dn v (sendAck (fqPop s)) = false :=
      (isDuplicate_sendAck (s := fqPop s) h.up dn v).trans hnew
    rw [dedupUpdate_of_fresh hsent, sendAck_of_up (s := fqPop s) h.up]
    simp [afterReport, withEvents, emit, fqPop]
  rw [onFrame_ready h.ready, onCommand, if_neg (not_not.mpr hown), hnew, if_neg Bool.false_ne_true, hcommon]

theorem onCommand_of_consumed (h : Fresh s st dn v) (hrole : consumes s.cfg dn = true) (body : State → State) :
    onFrame (onCommand st dn v (ifConsumed dn v body)) s = .next (body (afterReport s dn v)) := by
  have hcheck : ifConsumed dn v body (afterReport s dn v) = body (afterReport s dn v) := if_pos hrole
  rw [onCommand_of_fresh h, hcheck]

/-- What the role does not consume is acknowledged and reported, and its own effect is not run (45_session_rx.md
R237). -/
theorem onCommand_of_unconsumed (h : Fresh s st dn v) (hrole : consumes s.cfg dn = false) (body : State → State) :
    onFrame (onCommand st dn v (ifConsumed dn v body)) s
      = .next (withEvents (afterReport s dn v) [.unhandled dn v]) := by
  have hcheck : ifConsumed dn v body (afterReport s dn v) = emit (.unhandled dn v) (afterReport s dn v) :=
    if_neg (by simp [afterReport, hrole])
  rw [onCommand_of_fresh h, hcheck]
  rfl

/-- A duplicate is acknowledged and its own effect is not run (45_session_rx.md R227). -/
theorem onCommand_of_duplicate (hready : frameReady s = true) (hdup : isDuplicate dn v s = true)
    (body : State → State) :
    onFrame (onCommand s.cfg.ownId dn v body) s = .next
      { s with
        fq := s.fq.tail
        txq := s.txq ++ [encodeAck .ack s.cfg.ownId]
        events := s.events ++ [.ackSent, .duplicate dn v] } := by
  obtain ⟨hup, -⟩ := (frameReady_iff s).mp hready
  have hdupPop : isDuplicate dn v (fqPop s) = true := hdup
  have hsuppressed : onCommand s.cfg.ownId dn v body (fqPop s) = emit (.duplicate dn v) (sendAck (fqPop s)) :=
    (if_neg (not_not.mpr rfl)).trans (if_pos hdupPop)
  rw [onFrame_ready hready, hsuppressed, sendAck_of_up (s := fqPop s) hup]
  simp [withEvents, emit, fqPop]

/-! ## The rows behind the role check (45_session_rx.md R237) -/

/-- The none sentinel's row runs the rule of `TGT_FLOOR` on its value (30_encoding.md R109). -/
theorem exec_classifyCmd_target (s : State) (st : Station) (v : W16) :
    exec (classifyCmd s.cfg st 0x0002 v) s = exec (.tgtFloor st v) s := by
  by_cases hv : v = 0x0000
  · subst hv
    rfl
  · rw [classifyCmd_tgtFloor hv]

/-- The rows of the three named door values run the rule of `DOOR_CTL` on their values (30_encoding.md R109). -/
theorem exec_classifyCmd_door (s : State) (st : Station) (v : W16) :
    exec (classifyCmd s.cfg st 0x0011 v) s = exec (.doorCtl st v) s := by
  have hdoor : v = 0x0000 ∨ v = 0x0001 ∨ v = 0x0002 ∨ 0x0002 < v := by bv_omega
  rcases hdoor with rfl | rfl | rfl | hv
  · rfl
  · rfl
  · rfl
  · rw [classifyCmd_doorCtl hv]

/-- The data numbers of the base registry, and the two commands of the handshake registry, are behind the role check;
the premises on the parameters let no other handshake row hide those two. -/
theorem exec_classifyCmd_checked (hok : s.cfg.ok = true) (st : Station) (v : W16)
    (hdn : dn ∈ baseDns ∨ (s.cfg.handshakeEn = true ∧ (dn = s.cfg.dnFloorCmd ∨ dn = s.cfg.dnDoorCmd))) :
    ∃ body, exec (classifyCmd s.cfg st dn v) s = onFrame (onCommand st dn v (ifConsumed dn v body)) s := by
  rcases hdn with hbase | ⟨hen, hcmd⟩
  · simp only [baseDns, List.mem_cons, List.not_mem_nil, or_false] at hbase
    rcases hbase with rfl | rfl | rfl | rfl | rfl
    · exact ⟨_, rfl⟩
    · exact ⟨_, exec_classifyCmd_target s st v⟩
    · exact ⟨_, rfl⟩
    · exact ⟨_, rfl⟩
    · exact ⟨_, exec_classifyCmd_door s st v⟩
  · rcases hcmd with rfl | rfl
    · rw [classifyCmd_of_handshakeRow hok hen (row := .floorCmd) (by simp [Config.handshakeRows])]
      exact ⟨_, rfl⟩
    · rw [classifyCmd_of_handshakeRow hok hen (row := .doorCmd) (by simp [Config.handshakeRows])]
      exact ⟨_, rfl⟩

end

/-! ## The statements -/

/-- Settles O12: every frame is executed through `onFrame`, which waits for the link and for room. -/
theorem frameWaitsUntilReady : Obligations.FrameWaitsUntilReady := by
  intro s f hnot
  obtain ⟨body, hexec⟩ := exec_classify s f
  rw [hexec, onFrame_waits (frameReady_eq_false_iff.mpr hnot)]

/-- Settles O13: the station is compared before anything that depends on the row. -/
theorem frameForAnotherStationIsIgnored : Obligations.FrameForAnotherStationIsIgnored :=
  fun s _ dn v hup hroom hst => exec_classifyCmd_of_not_own ((frameReady_iff s).mpr ⟨hup, hroom⟩) hst dn v

/-- Settles O14: a duplicate leaves the common way before the row's own effect. -/
theorem duplicateIsAckedAndNotExecuted : Obligations.DuplicateIsAckedAndNotExecuted := by
  intro s dn v hup hroom hdup
  obtain ⟨body, hexec⟩ := exec_classifyCmd s s.cfg.ownId dn v
  exact hexec.trans (onCommand_of_duplicate ((frameReady_iff s).mpr ⟨hup, hroom⟩) hdup body)

/-- Settles O15: the rows of the checked data numbers are behind the role check, which this role fails. -/
theorem unconsumedFrameIsOnlyReported : Obligations.UnconsumedFrameIsOnlyReported := by
  intro s st dn v hok hfresh hrole hdn
  obtain ⟨body, hexec⟩ := exec_classifyCmd_checked hok st v hdn
  exact hexec.trans (onCommand_of_unconsumed hfresh hrole body)

/-- Settles O10: the head of the schedule is the step's action, and both actions are `exec` of what they decode. -/
theorem stepRunsDecodedInstruction : Obligations.StepRunsDecodedInstruction := by
  refine ⟨fun s r f q hsched hfq => step_of_sched_xFrame hsched hfq, fun s r w i hsched hdecode => ?_⟩
  rw [step_of_sched hsched, beginStep_of_sched hsched]
  simp only [perform, hostOp, hdecode, Action.turn]

end Sys2Proof.Machine
end

section
/-! The reports and the commands: the effect of each row, behind the role check (45_session_rx.md R229 to R237, R246,
R247). -/

namespace Sys2Proof.Machine

/-! ## What a role consumes (60_exceptions.md R320) -/

section
variable {c : Config} {dn : W16}

theorem consumes_of_controller (hrole : c.role = .controller) (hdn : dn ∈ ([0x0001, 0x0002, 0x0003] : List W16)) :
    consumes c dn = true := by
  simp only [consumes, hrole, Bool.or_eq_true, List.contains_iff_mem]
  exact .inl hdn

theorem consumes_of_dataSource (hrole : c.role = .dataSource) (hdn : dn ∈ ([0x0010, 0x0011] : List W16)) :
    consumes c dn = true := by
  simp only [consumes, hrole, Bool.or_eq_true, List.contains_iff_mem]
  exact .inl hdn

theorem consumes_of_dataSource_handshake (hrole : c.role = .dataSource) (hen : c.handshakeEn = true)
    (hdn : dn ∈ c.handshakeDns) : consumes c dn = true := by
  simp only [consumes, hrole, Bool.or_eq_true, Bool.and_eq_true, List.contains_iff_mem]
  exact .inr ⟨hen, hdn⟩

end

section
variable {s : State} {v : W16}

/-! ## The effects of the reports (45_session_rx.md R229 to R233) -/

theorem currentFloorReport_eq (v : W16) (s : State) :
    currentFloorReport v s = withEvents { s with currentFloor := v }
      (if v = s.currentFloor then [] else [.changed .currentFloor s.currentFloor v]) := by
  by_cases hv : v = s.currentFloor <;> simp [currentFloorReport, emit, withEvents, hv]

theorem loadReport_eq (v : W16) (s : State) :
    loadReport v s = withEvents { s with loadWeight := v }
      (if v = s.loadWeight then [] else [.changed .loadWeight s.loadWeight v]) := by
  by_cases hv : v = s.loadWeight <;> simp [loadReport, emit, withEvents, hv]

theorem targetFloorReport_none_of_pending {t : W16} (ht : s.targetFloor = some t) :
    targetFloorReport 0x0000 s = withEvents { s with currentFloor := t, targetFloor := none, moving := false }
      [.arrival t] := by
  simp only [targetFloorReport, ht, if_true]
  rfl

theorem targetFloorReport_none_of_idle (ht : s.targetFloor = none) : targetFloorReport 0x0000 s = s := by
  simp only [targetFloorReport, ht, if_true]

theorem targetFloorReport_current (hv : s.currentFloor ≠ 0x0000) (harrive : s.cfg.arriveOnEqual = true) :
    targetFloorReport s.currentFloor s = withEvents { s with targetFloor := none, moving := false }
      [.arrival s.currentFloor] := by
  have hequal : (s.cfg.arriveOnEqual && s.currentFloor == s.currentFloor) = true := by simp [harrive]
  exact (if_neg hv).trans (if_pos hequal)

theorem targetFloorReport_new (hv : v ≠ 0x0000) (hnew : ¬ (s.cfg.arriveOnEqual = true ∧ v = s.currentFloor)) :
    targetFloorReport v s = withEvents { s with targetFloor := some v, moving := true }
      (if s.targetFloor = some v then [] else [.changed .targetFloor (s.targetFloor.getD 0x0000) v]) := by
  have hequal : ¬ (s.cfg.arriveOnEqual && v == s.currentFloor) = true := by simpa using hnew
  refine ((if_neg hv).trans (if_neg hequal)).trans ?_
  by_cases hsame : s.targetFloor = some v <;> simp [setTarget, floorOrZero, emit, withEvents, hsame]

/-! ## The effect of a door command (45_session_rx.md R235) -/

/-- A value that is not reserved is recorded as the door's two bits. -/
theorem doorCommand_named {door : BitVec 2} (dn : W16) (s : State) (hv : v ≤ 0x0002)
    (hdoor : v.extractLsb' 0 2 = door) :
    doorCommand dn v s = withEvents { s with doorStatus := door }
      ((if s.doorStatus = door then [] else [.changed .doorStatus (s.doorStatus.setWidth 16) v]) ++ [.doorCmd v]) := by
  have hvalue : door.setWidth 16 = v := by
    have hlt : v.toNat ≤ 2 := BitVec.le_def.mp hv
    rw [← BitVec.toNat_inj, ← hdoor]
    simp only [BitVec.toNat_setWidth, BitVec.extractLsb'_toNat, Nat.shiftRight_zero]
    omega
  refine (if_pos hv).trans ?_
  by_cases hsame : s.doorStatus = door <;> simp [emit, withEvents, hdoor, hvalue, hsame]

/-- `DOOR_CTL` with a value that is not reserved, which the rows of the named values execute too. -/
theorem exec_doorCtl_named {st : Station} {door : BitVec 2} (hrole : s.cfg.role = .dataSource) (hv : v ≤ 0x0002)
    (hdoor : v.extractLsb' 0 2 = door) (hfresh : Fresh s st 0x0011 v) :
    exec (.doorCtl st v) s = .next (withEvents { afterReport s 0x0011 v with doorStatus := door }
      ((if s.doorStatus = door then [] else [.changed .doorStatus (s.doorStatus.setWidth 16) v]) ++ [.doorCmd v])) :=
  (onCommand_of_consumed hfresh (consumes_of_dataSource hrole (by decide)) _).trans
    (congrArg _ (doorCommand_named 0x0011 _ hv hdoor))

theorem doorCommand_reserved (dn : W16) (s : State) (hv : 0x0002 < v) :
    doorCommand dn v s = withEvents s [.reservedValue dn v] := if_neg (BitVec.not_le.mpr hv)

end

end Sys2Proof.Machine

/-! ## The statements

Each executes a frame whose data number the role consumes, so what is left is the equation of its effect on the state
after the common part. They stand outside `Sys2Proof.Machine`, where two of their names are the model's. -/

namespace Sys2Proof.Session

section
open Machine

/-- Settles O17: the report records the floor, and is never an arrival. -/
theorem currentFloorReport : Obligations.CurrentFloorReport := fun _ _ v hfresh hrole =>
  (onCommand_of_consumed hfresh (consumes_of_controller hrole (by decide)) _).trans
    (congrArg _ (currentFloorReport_eq v _))

/-- Settles O18: a value that is neither the none sentinel nor an arrival is the new target. -/
theorem targetFloorReport : Obligations.TargetFloorReport := fun _ _ _ hv hnew hfresh hrole =>
  (onCommand_of_consumed hfresh (consumes_of_controller hrole (by decide)) _).trans
    (congrArg _ (targetFloorReport_new hv hnew))

/-- Settles O19: with `ARRIVE_ON_EQUAL` the current floor as the target is an arrival. -/
theorem targetEqualToCurrentFloorArrives : Obligations.TargetEqualToCurrentFloorArrives :=
  fun s _ hv harrive hfresh hrole =>
  (onCommand_of_consumed hfresh (consumes_of_controller hrole (by decide)) _).trans
    (congrArg _ (targetFloorReport_current (s := afterReport s 0x0002 s.currentFloor) hv harrive))

/-- Settles O20: the pending target decides. -/
theorem noTargetReportArrives : Obligations.NoTargetReportArrives := by
  intro s st hfresh hrole
  have hexec : exec (.tgtNone st) s = .next (Machine.targetFloorReport 0x0000 (afterReport s 0x0002 0x0000)) :=
    onCommand_of_consumed hfresh (consumes_of_controller hrole (by decide)) _
  exact ⟨fun _ ht => hexec.trans (congrArg _ (targetFloorReport_none_of_pending ht)),
    fun ht => hexec.trans (congrArg _ (targetFloorReport_none_of_idle ht))⟩

/-- Settles O21: the report records the load. -/
theorem loadWeightReport : Obligations.LoadWeightReport := fun _ _ v hfresh hrole =>
  (onCommand_of_consumed hfresh (consumes_of_controller hrole (by decide)) _).trans (congrArg _ (loadReport_eq v _))

/-- Settles O22: the effect of both commands is one event. -/
theorem floorCommandsGoToTheHost : Obligations.FloorCommandsGoToTheHost :=
  ⟨fun _ _ _ hfresh hrole => onCommand_of_consumed hfresh (consumes_of_dataSource hrole (by decide)) _,
    fun _ _ _ hfresh hrole hen =>
      onCommand_of_consumed hfresh
        (consumes_of_dataSource_handshake hrole hen (by simp [Config.handshakeDns])) _⟩

/-- Settles O23: the three named values are the door's two bits. -/
theorem doorCommandsSetTheDoor : Obligations.DoorCommandsSetTheDoor := by
  intro s st hrole
  exact ⟨fun hfresh => exec_doorCtl_named hrole (by decide) (by decide) hfresh,
    fun hfresh => exec_doorCtl_named hrole (by decide) (by decide) hfresh,
    fun hfresh => exec_doorCtl_named hrole (by decide) (by decide) hfresh⟩

/-- Settles O24: a reserved value is reported, and `DOOR_CMD` runs the rule of `DOOR_CTL` on every value. -/
theorem reservedDoorValueAndDoorCmd : Obligations.ReservedDoorValueAndDoorCmd := by
  refine ⟨fun s st v hv hfresh hrole => ?_, fun s st v hfresh hrole hen => ?_⟩
  · exact (onCommand_of_consumed hfresh (consumes_of_dataSource hrole (by decide)) _).trans
      (congrArg _ (doorCommand_reserved 0x0011 _ hv))
  · refine (onCommand_of_consumed hfresh
      (consumes_of_dataSource_handshake hrole hen (by simp [Config.handshakeDns])) _).trans (congrArg _ ?_)
    split
    next hv => exact doorCommand_reserved _ _ hv
    next hv =>
      have hle : v.toNat ≤ 2 := Nat.not_lt.mp hv
      have hdoor : v.extractLsb' 0 2 = BitVec.ofNat 2 v.toNat := rfl
      have hsame : s.doorStatus = BitVec.ofNat 2 v.toNat ↔ s.doorStatus.toNat = v.toNat := by
        rw [← BitVec.toNat_inj, BitVec.toNat_ofNat, Nat.mod_eq_of_lt (by omega)]
      simp only [← hsame]
      exact doorCommand_named _ _ (BitVec.not_lt.mp hv) hdoor

/-- Settles O25: the row has no role check, and its effect is one event. -/
theorem unknownDataNumberWritesNothing : Obligations.UnknownDataNumberWritesNothing :=
  fun _ _ _ _ hfresh => onCommand_of_fresh hfresh _

end

end Sys2Proof.Session
end

section
/-! The handshake's requests and responses, and the acknowledgement frames (45_session_rx.md R222, R223, R240 to R245,
R248). -/

namespace Sys2Proof.Machine

section
variable {s : State} {st : Station} {v : W16}

theorem withEvents_withEvents (s : State) (es es' : List Event) :
    withEvents (withEvents s es) es' = withEvents s (es ++ es') := by
  simp [withEvents]

/-! ## One place forward (45_session_rx.md R248) -/

theorem advance_eq {old new : SessState} (hne : old ≠ new) (s : State) :
    advance old new s = withEvents { s with sessState := if s.sessState = old then new else s.sessState }
      (if s.sessState = old then [.sessState old new] else []) := by
  by_cases hold : s.sessState = old
  · simp [advance, setSess, emit, withEvents, hold, hne]
  · simp [advance, withEvents, hold]

/-! ## Requests (45_session_rx.md R241 to R243, R245) -/

theorem sendResponse_of_up (hup : linkUp s = true) (rsp req v : W16) :
    sendResponse rsp req v s = withEvents
      { s with txq := s.txq ++ [encodeCmd s.cfg.peerId rsp (s.cfg.response req v (elevatorStatus s))] }
      [.responseSent rsp] := by
  rw [sendResponse, send_up hup]
  rfl

/-- A request that is executed: the response goes behind the ACK, then the session advances. -/
theorem onCommand_handshakeRequest {req : W16} (hfresh : Fresh s st req v) (rsp : W16) {old new : SessState}
    (hne : old ≠ new) :
    onFrame (onCommand st req v (handshakeRequest req rsp v old new)) s = .next (withEvents
      { afterReport s req v with
        txq := s.txq ++ [encodeAck .ack s.cfg.ownId,
          encodeCmd s.cfg.peerId rsp (s.cfg.response req v (elevatorStatus s))]
        sessState := if s.sessState = old then new else s.sessState }
      ([.responseSent rsp] ++ (if s.sessState = old then [.sessState old new] else []))) := by
  have hup : linkUp (afterReport s req v) = true := hfresh.up
  rw [onCommand_of_fresh hfresh, handshakeRequest, sendResponse_of_up hup, advance_eq hne]
  simp [afterReport, withEvents, elevatorStatus]

/-! ## Responses (45_session_rx.md R244, 46_session_tx.md R267) -/

theorem exchangeSuccess_eq (s : State) :
    exchangeSuccess s = withEvents { s with pendValid := false, retryCnt := 0 }
      [.cmdOk s.pendDn s.pendValue s.retryCnt] := rfl

/-- With `HANDSHAKE_EN` the three requests have their responses, which the premises on the parameters keep apart
(45_session_rx.md R240). -/
theorem rspOf_eq_some_iff {c : Config} (hok : c.ok = true) (hen : c.handshakeEn = true) (dn : W16) :
    (rspOf c dn = some c.dnPong ↔ dn = c.dnPing) ∧ (rspOf c dn = some c.dnStatusRsp ↔ dn = c.dnStatusReq)
      ∧ (rspOf c dn = some c.dnControlAck ↔ dn = c.dnControlReq) := by
  obtain ⟨hnodup, -⟩ := Config.handshakeDns_of_ok hok
  simp only [Config.handshakeDns, List.nodup_cons, List.mem_cons, List.not_mem_nil, or_false, not_or] at hnodup
  simp only [rspOf, hen, Bool.not_true, Bool.false_eq_true, if_false]
  split_ifs <;> grind

/-- A response completes the exchange of its own request `req` when that is pending, then the session advances. -/
theorem handshakeResponse_eq {req rsp : W16} (hrsp : rspOf s.cfg s.pendDn = some rsp ↔ s.pendDn = req)
    {old new : SessState} (hne : old ≠ new) :
    handshakeResponse rsp old new s = withEvents
      { s with
        pendValid := s.pendValid && s.pendDn != req
        retryCnt := if s.pendValid = true ∧ s.pendDn = req then 0 else s.retryCnt
        sessState := if s.sessState = old then new else s.sessState }
      ((if s.pendValid = true ∧ s.pendDn = req then [.cmdOk s.pendDn s.pendValue s.retryCnt] else [])
        ++ (if s.sessState = old then [.sessState old new] else [])) := by
  have hown : (s.pendValid && rspOf s.cfg s.pendDn == some rsp) = true ↔ s.pendValid = true ∧ s.pendDn = req := by
    rw [Bool.and_eq_true, beq_iff_eq, hrsp]
  rw [handshakeResponse, advance_eq hne]
  by_cases hpend : s.pendValid = true ∧ s.pendDn = req
  · have hdone : (s.pendValid && s.pendDn != req) = false := by simp [hpend.2]
    rw [if_pos (hown.mpr hpend), exchangeSuccess_eq, if_pos hpend, if_pos hpend, hdone]
    exact withEvents_withEvents { s with pendValid := false, retryCnt := 0, sessState := _ } _ _
  · have hkept : (s.pendValid && s.pendDn != req) = s.pendValid := by
      rw [Bool.and_eq_left_iff_imp, bne_iff_ne]
      exact fun hvalid hdn => hpend ⟨hvalid, hdn⟩
    rw [if_neg (mt hown.mp hpend), if_neg hpend, if_neg hpend, hkept, List.nil_append]

theorem onCommand_handshakeResponse {req rsp : W16} (hfresh : Fresh s st rsp v)
    (hrsp : rspOf s.cfg s.pendDn = some rsp ↔ s.pendDn = req) {old new : SessState} (hne : old ≠ new) :
    onFrame (onCommand st rsp v (handshakeResponse rsp old new)) s = .next (withEvents
      { afterReport s rsp v with
        pendValid := s.pendValid && s.pendDn != req
        retryCnt := if s.pendValid = true ∧ s.pendDn = req then 0 else s.retryCnt
        sessState := if s.sessState = old then new else s.sessState }
      ((if s.pendValid = true ∧ s.pendDn = req then [.cmdOk s.pendDn s.pendValue s.retryCnt] else [])
        ++ (if s.sessState = old then [.sessState old new] else []))) :=
  (onCommand_of_fresh hfresh _).trans (congrArg _ (handshakeResponse_eq (s := afterReport s rsp v) hrsp hne))

/-! ## Acknowledgement frames (45_session_rx.md R222, R223) -/

theorem ackEffect_eq (st : Station) (s : State) :
    ackEffect st s =
      if s.pendValid = true ∧ st = s.cfg.peerId then
        withEvents { s with pendValid := false, retryCnt := 0 } [.cmdOk s.pendDn s.pendValue s.retryCnt]
      else withEvents s [.strayAck st] := by
  simp only [ackEffect, Bool.and_eq_true, beq_iff_eq, exchangeSuccess_eq]
  rfl

end

/-! ## The statements -/

/-- Settles O26: each request by `onCommand_handshakeRequest`, with its own response and its own place in the order. -/
theorem handshakeRequestsAreAnswered : Obligations.HandshakeRequestsAreAnswered := fun _ _ _ =>
  ⟨fun hfresh => onCommand_handshakeRequest hfresh _ (by decide),
    fun hfresh => onCommand_handshakeRequest hfresh _ (by decide),
    fun hfresh => onCommand_handshakeRequest hfresh _ (by decide)⟩

/-- Settles O27: each response by `onCommand_handshakeResponse`, with its own request from `RSP`. -/
theorem handshakeResponsesComplete : Obligations.HandshakeResponsesComplete := by
  intro s st v hok hen
  obtain ⟨hpong, hstatus, hcontrol⟩ := rspOf_eq_some_iff hok hen s.pendDn
  exact ⟨fun hfresh => onCommand_handshakeResponse hfresh hpong (by decide),
    fun hfresh => onCommand_handshakeResponse hfresh hstatus (by decide),
    fun hfresh => onCommand_handshakeResponse hfresh hcontrol (by decide)⟩

/-- Settles O28: both frames are popped, and then the effect of an ACK depends on its station and on what is pending. -/
theorem ackCompletesAndNakChangesNothing : Obligations.AckCompletesAndNakChangesNothing := by
  refine ⟨fun s st hup hroom => ?_, fun s st hup hroom => ?_⟩
  · exact (onFrame_ready ((frameReady_iff s).mpr ⟨hup, hroom⟩) _).trans (congrArg _ (ackEffect_eq st (fqPop s)))
  · exact onFrame_ready ((frameReady_iff s).mpr ⟨hup, hroom⟩) _

end Sys2Proof.Machine
end

section
/-! The exchange's timeout (45_session_rx.md R220, 46_session_tx.md R268 to R271). -/

namespace Sys2Proof.Machine

section
variable {s : State}

theorem xTimeoutEnabled_iff :
    xTimeoutEnabled s = true ↔
      linkUp s = true ∧ s.pendValid = true ∧ s.cfg.ackTimeout ≤ (elapsed s s.ackT0).toNat ∧ s.fq = []
        ∧ s.txq.length < s.cfg.txqDepth := by
  simp only [xTimeoutEnabled, txqRoom, Bool.and_eq_true, decide_eq_true_eq, List.isEmpty_iff,
    Nat.succ_le_iff, and_assoc]

theorem xTimeout_of_not_enabled (h : ¬ xTimeoutEnabled s = true) : xTimeout s = s := if_neg h

/-- While resends are left the same frame is sent again and the timer starts anew (46_session_tx.md R268, R269). -/
theorem xTimeout_resends (hen : xTimeoutEnabled s = true) (hleft : s.retryCnt.toNat < s.cfg.maxRetries) :
    xTimeout s = withEvents
      { s with
        txq := s.txq ++ [encodeCmd s.cfg.peerId s.pendDn s.pendValue]
        retryCnt := s.retryCnt + 1
        ackT0 := s.now }
      [.error (.ackTimeout s.pendDn s.retryCnt), .retry s.pendDn (s.retryCnt + 1)] := by
  obtain ⟨hup, -⟩ := xTimeoutEnabled_iff.mp hen
  have hraised : linkUp (raise (.ackTimeout s.pendDn s.retryCnt) s) = true := hup
  refine ((if_pos hen).trans (if_pos hleft)).trans ?_
  rw [send_up hraised]
  simp [raise, emit, txPush, withEvents]

/-- With no resend left the exchange ends, and the link stays as it is (46_session_tx.md R269, R271). -/
theorem xTimeout_gives_up (hen : xTimeoutEnabled s = true) (hspent : s.cfg.maxRetries ≤ s.retryCnt.toNat) :
    xTimeout s = withEvents { s with pendValid := false, retryCnt := 0 }
      [.error (.ackTimeout s.pendDn s.retryCnt), .error (.retryExhausted s.pendDn s.pendValue)] := by
  refine ((if_pos hen).trans (if_neg hspent.not_gt)).trans ?_
  simp [raise, emit, endExchange, withEvents]

end

/-- Settles O50: the conjuncts of the enabling condition, and where it holds the two cases of the retry counter. -/
theorem timeoutResendsOrGivesUp : Obligations.TimeoutResendsOrGivesUp := by
  intro s r hsched
  rw [step_of_sched hsched]
  refine ⟨fun hup hpend hlate hfq hroom => ?_, fun hnot => ?_⟩
  · have hen : xTimeoutEnabled (beginStep s) = true := xTimeoutEnabled_iff.mpr ⟨hup, hpend, hlate, hfq, hroom⟩
    exact ⟨fun hleft => congrArg _ (xTimeout_resends hen hleft),
      fun hspent => congrArg _ (xTimeout_gives_up hen hspent)⟩
  · refine congrArg _ (xTimeout_of_not_enabled (s := beginStep s) fun hen => ?_)
    obtain ⟨hup, hpend, hlate, hfq, hroom⟩ := xTimeoutEnabled_iff.mp hen
    rcases hnot with hdown | hidle | hearly | hwaits | hfull
    · exact Bool.false_ne_true (hdown.symm.trans hup)
    · exact Bool.false_ne_true (hidle.symm.trans hpend)
    · exact hlate.not_gt hearly
    · exact hwaits hfq
    · exact hfull.not_gt hroom

end Sys2Proof.Machine
end

section
/-! Who moves `sess_state`, and where to (10_state.md R37, 45_session_rx.md R248). -/

namespace Sys2Proof.Machine

/-- One place forward in the order of 45_session_rx.md R248. -/
def SessState.Advances (old new : SessState) : Prop :=
  (old = .idle ∧ new = .handshaking) ∨ (old = .handshaking ∧ new = .linked) ∨ (old = .linked ∧ new = .controlling)

/-- `sess_state` is kept or moves one place forward: what a received frame may do with it. -/
def SessKeptOrAdvanced (s t : State) : Prop := t.sessState = s.sessState ∨ s.sessState.Advances t.sessState

/-- `sess_state` is kept or goes back to Idle: what every other step may do with it. -/
def SessKeptOrIdle (s t : State) : Prop := t.sessState = s.sessState ∨ t.sessState = .idle

section
variable (s : State)

/-! ## The effects of the frames -/

@[simp] theorem sendAck_sessState : (sendAck s).sessState = s.sessState := by simp [sendAck]

theorem sessState_currentFloorReport (v : W16) : (currentFloorReport v s).sessState = s.sessState := by
  rw [currentFloorReport_eq]
  rfl

theorem sessState_loadReport (v : W16) : (loadReport v s).sessState = s.sessState := by
  rw [loadReport_eq]
  rfl

theorem sessState_targetFloorReport (v : W16) : (targetFloorReport v s).sessState = s.sessState := by
  unfold targetFloorReport
  split
  · split <;> rfl
  split
  · rfl
  · rw [setTarget_sessState]
    split <;> rfl

theorem sessState_doorCommand (dn v : W16) : (doorCommand dn v s).sessState = s.sessState := by
  by_cases hv : v ≤ 0x0002
  · rw [doorCommand_named dn s hv rfl]
    rfl
  · rw [doorCommand_reserved dn s (BitVec.not_le.mp hv)]
    rfl

theorem sessState_ackEffect (st : Station) : (ackEffect st s).sessState = s.sessState := by
  rw [ackEffect_eq]
  split <;> rfl

theorem sess_advance {old new : SessState} (h : old.Advances new) : SessKeptOrAdvanced s (advance old new s) := by
  unfold advance
  split
  next hold => exact .inr (by rwa [hold, setSess_sessState])
  next => exact .inl rfl

theorem sess_handshakeRequest {old new : SessState} (h : old.Advances new) (req rsp v : W16) :
    SessKeptOrAdvanced s (handshakeRequest req rsp v old new s) := by
  have hsend : (sendResponse rsp req v s).sessState = s.sessState := by simp [sendResponse]
  have hadvance := sess_advance (sendResponse rsp req v s) h
  rwa [SessKeptOrAdvanced, hsend] at hadvance

theorem sess_handshakeResponse {old new : SessState} (h : old.Advances new) (dn : W16) :
    SessKeptOrAdvanced s (handshakeResponse dn old new s) := by
  unfold handshakeResponse
  split
  · exact sess_advance (exchangeSuccess s) h
  · exact sess_advance s h

/-! ## Every frame -/

theorem sess_onFrame {body : State → State} (hbody : ∀ u, (body u).sessState = u.sessState) :
    AllNext (SessKeptOrAdvanced s) (onFrame body s) :=
  allNext_onFrame (.inl rfl) fun _ => .inl (hbody (fqPop s))

/-- The common way of a CommandFrame leaves `sess_state` to the frame's own effect. -/
theorem sess_command {body : State → State} (hbody : ∀ u, SessKeptOrAdvanced u (body u)) (st : Station) (dn v : W16) :
    AllNext (SessKeptOrAdvanced s) (onFrame (onCommand st dn v body) s) := by
  refine allNext_onFrame (.inl rfl) fun _ => ?_
  rcases onCommand_cases st dn v body (fqPop s) with ⟨_, he⟩ | ⟨_, _, he⟩ | ⟨_, _, he⟩ <;> rw [he]
  · exact .inl rfl
  · exact .inl (sendAck_sessState (fqPop s))
  · have hkept : (emit (.report dn v) (dedupUpdate dn v (sendAck (fqPop s)))).sessState = s.sessState := by simp
    have heffect := hbody (emit (.report dn v) (dedupUpdate dn v (sendAck (fqPop s))))
    rwa [SessKeptOrAdvanced, hkept] at heffect

theorem sess_consumedCommand {body : State → State} (hbody : ∀ u, (body u).sessState = u.sessState) (st : Station)
    (dn v : W16) : AllNext (SessKeptOrAdvanced s) (onFrame (onCommand st dn v (ifConsumed dn v body)) s) := by
  refine sess_command s (fun u => .inl ?_) st dn v
  rcases ifConsumed_cases dn v body u with ⟨_, he⟩ | ⟨_, he⟩ <;> rw [he]
  · exact hbody u
  · rfl

theorem sess_exec_frame {i : Instr} (hi : i.isHostOp = false) : AllNext (SessKeptOrAdvanced s) (exec i s) := by
  have hping : SessState.idle.Advances .handshaking := .inl ⟨rfl, rfl⟩
  have hstatus : SessState.handshaking.Advances .linked := .inr (.inl ⟨rfl, rfl⟩)
  have hcontrol : SessState.linked.Advances .controlling := .inr (.inr ⟨rfl, rfl⟩)
  cases i with
  | curFloor st v => exact sess_consumedCommand s (sessState_currentFloorReport · v) st _ v
  | tgtFloor st v => exact sess_consumedCommand s (sessState_targetFloorReport · v) st _ v
  | tgtNone st => exact sess_consumedCommand s (sessState_targetFloorReport · _) st _ _
  | load st v => exact sess_consumedCommand s (sessState_loadReport · v) st _ v
  | floorSet st v => exact sess_consumedCommand s (emit_sessState _ ·) st _ v
  | doorCtl st v => exact sess_consumedCommand s (sessState_doorCommand · _ v) st _ v
  | doorStop st => exact sess_consumedCommand s (sessState_doorCommand · _ _) st _ _
  | doorOpen st => exact sess_consumedCommand s (sessState_doorCommand · _ _) st _ _
  | doorClose st => exact sess_consumedCommand s (sessState_doorCommand · _ _) st _ _
  | floorCmd st v => exact sess_consumedCommand s (emit_sessState _ ·) st _ v
  | doorCmd st v => exact sess_consumedCommand s (sessState_doorCommand · _ v) st _ v
  | unknownDn st dn v => exact sess_command s (fun u => .inl (emit_sessState _ u)) st dn v
  | ping st v => exact sess_command s (sess_handshakeRequest · hping _ _ v) st _ v
  | statusReq st v => exact sess_command s (sess_handshakeRequest · hstatus _ _ v) st _ v
  | controlReq st v => exact sess_command s (sess_handshakeRequest · hcontrol _ _ v) st _ v
  | pong st v => exact sess_command s (sess_handshakeResponse · hping _) st _ v
  | statusRsp st v => exact sess_command s (sess_handshakeResponse · hstatus _) st _ v
  | controlAck st v => exact sess_command s (sess_handshakeResponse · hcontrol _) st _ v
  | ack st => exact sess_onFrame s (sessState_ackEffect · st)
  | nak st => exact sess_onFrame s (emit_sessState _ ·)
  | nop | start | stop | issue _ _ | snapshot => cases hi

theorem sess_xFrame : AllNext (SessKeptOrAdvanced s) (xFrame s) := by
  unfold xFrame
  split
  · exact allNext_next (.inl rfl)
  · exact sess_exec_frame s (classify_isHostOp s.cfg _)

/-! ## The host operations -/

theorem sessState_execIssue (dn v : W16) : AllNext (fun t => t.sessState = s.sessState) (execIssue dn v s) := by
  unfold execIssue
  split
  · exact allNext_next rfl
  split
  · exact allNext_next rfl
  split
  · exact allNext_next rfl
  · exact allNext_next (send_sessState (encodeCmd s.cfg.peerId dn v) s)

theorem sess_execStart : AllNext (SessKeptOrIdle s) (execStart s) := by
  unfold execStart
  split
  · exact allNext_next (.inl rfl)
  · exact allNext_next (.inr rfl)

/-- Of the host operations `START` and `STOP` alone move `sess_state`, and they clear it. -/
theorem sess_hostOp (w : BitVec 36) : AllNext (SessKeptOrIdle s) (hostOp w s) := by
  unfold hostOp
  split
  next i hi =>
    have hop := decodeHop_isHostOp hi
    cases i with
    | nop => exact allNext_next (.inl rfl)
    | start => exact sess_execStart s
    | stop => exact allNext_next (.inr rfl)
    | issue dn v => exact fun t ht => .inl (sessState_execIssue s dn v t ht)
    | snapshot => exact allNext_next (.inl rfl)
    | _ => cases hop
  next => exact allNext_next (.inl rfl)

/-! ## The link, the scanner, the transmitter, the timer -/

/-- The loss of the link takes the session back to Idle (43_link_scanner.md R182). -/
theorem sessState_linkDown (cause : LinkCause) : (linkDown cause s).sessState = .idle := by
  rw [linkDown_eq_afterLinkDown]
  rfl

theorem sess_softFail : SessKeptOrIdle s (softFail s) := by
  unfold softFail
  split
  · exact .inr (sessState_linkDown _ _)
  · exact .inl rfl

theorem sess_rxChar (b : Byte) (perr ferr : Bool) : SessKeptOrIdle s (rxChar b perr ferr s) := by
  unfold rxChar
  split
  · dsimp only
    split
    · exact sess_softFail (raise _ { s with lastRxTime := s.now })
    split
    · exact sess_softFail (raise _ { s with lastRxTime := s.now })
    · exact .inl rfl
  · exact .inl rfl

theorem sess_rxBits (bits : List Bool) : SessKeptOrIdle s (rxBits bits s) := by
  unfold rxBits
  split
  · exact .inl rfl
  · exact sess_rxChar s _ _ _

theorem sessState_lOpen : (lOpen s).sessState = s.sessState := by
  unfold lOpen
  split <;> rfl

theorem sessState_devOpenOk : (devOpenOk s).sessState = s.sessState := by
  unfold devOpenOk
  split <;> rfl

theorem sessState_devOpenFail : (devOpenFail s).sessState = s.sessState := by
  unfold devOpenFail
  split
  · dsimp only
    split <;> rfl
  · rfl

theorem sess_devError : SessKeptOrIdle s (devError s) := by
  unfold devError
  split
  · exact .inr (sessState_linkDown _ _)
  split
  · exact .inl (sessState_devOpenFail s)
  · exact .inl rfl

theorem sess_lIdle : SessKeptOrIdle s (lIdle s) := by
  unfold lIdle
  split
  · exact .inr (sessState_linkDown _ _)
  · exact .inl rfl

theorem sessState_sSkip : (sSkip s).sessState = s.sessState := by
  unfold sSkip
  split <;> rfl

theorem sessState_sEmit : (sEmit s).sessState = s.sessState := by
  unfold sEmit
  split <;> rfl

theorem sessState_sReject : (sReject s).sessState = s.sessState := by
  unfold sReject
  split <;> rfl

/-- Neither a resend nor the end of an exchange is a move of the session (45_session_rx.md R248). -/
theorem sessState_xTimeout : (xTimeout s).sessState = s.sessState := by
  by_cases hen : xTimeoutEnabled s = true
  · rcases Nat.lt_or_ge s.retryCnt.toNat s.cfg.maxRetries with hleft | hspent
    · rw [xTimeout_resends hen hleft]
      rfl
    · rw [xTimeout_gives_up hen hspent]
      rfl
  · rw [xTimeout_of_not_enabled hen]

theorem sessState_txByte : (txByte s).sessState = s.sessState := by
  unfold txByte
  split
  · split
    · rfl
    split
    · rfl
    dsimp only
    split <;> rfl
  · rfl

/-! ## Every step -/

theorem sess_perform {a : Action} (hframe : a ≠ .xFrame) : AllNext (SessKeptOrIdle s) (perform a s) := by
  cases a with
  | xFrame => exact absurd rfl hframe
  | tick => exact allNext_next (.inl rfl)
  | rst => exact allNext_next (.inr rfl)
  | host w => exact sess_hostOp s w
  | rxChar b perr ferr => exact allNext_next (sess_rxChar s b _ ferr)
  | rxBits bits => exact allNext_next (sess_rxBits s bits)
  | devOpenOk => exact allNext_next (.inl (sessState_devOpenOk s))
  | devOpenFail => exact allNext_next (.inl (sessState_devOpenFail s))
  | devError => exact allNext_next (sess_devError s)
  | lOpen => exact allNext_next (.inl (sessState_lOpen s))
  | lIdle => exact allNext_next (sess_lIdle s)
  | sSkip => exact allNext_next (.inl (sessState_sSkip s))
  | sEmit => exact allNext_next (.inl (sessState_sEmit s))
  | sReject => exact allNext_next (.inl (sessState_sReject s))
  | xTimeout => exact allNext_next (.inl (sessState_xTimeout s))
  | txByte => exact allNext_next (.inl (sessState_txByte s))

end

/-- Settles O57: a step that moves `sess_state` is an `X-FRAME` step, which advances it, or one that clears it;
`X-TIMEOUT` and `Tick` keep it. -/
theorem sessionStateMovesOnePlace : Obligations.SessionStateMovesOnePlace := by
  intro s t hstep hmoved
  have hnot : ∀ {a : Action}, AllNext (fun u => u.sessState = s.sessState) (perform a (beginStep s)) →
      nextAction s ≠ a := fun hkept ha => hmoved (hkept t (ha ▸ hstep))
  refine ⟨hnot (allNext_next (sessState_xTimeout (beginStep s))), hnot (allNext_next rfl), ?_⟩
  by_cases hframe : nextAction s = .xFrame
  · have hx : xFrame (beginStep s) = .next t := by
      rw [step, hframe] at hstep
      exact hstep
    exact .inr ⟨hframe, (sess_xFrame (beginStep s) t hx).resolve_left hmoved⟩
  · exact .inl ((sess_perform (beginStep s) hframe t hstep).resolve_left hmoved)

end Sys2Proof.Machine
end

section
/-! The host operations `NOP`, `START`, `STOP`, `ISSUE` and `SNAPSHOT` (46_session_tx.md R260 to R265). -/

namespace Sys2Proof.Machine

section
variable {s : State}

/-! ## The answer on the host port (46_session_tx.md R260) -/

theorem refuse_eq (e : Error) (s : State) :
    refuse e s = withEvents { s with hostReply := some ⟨e.code, none⟩ } [.error e] := rfl

theorem accept_emit (e : Event) (s : State) :
    accept (emit e s) = withEvents { s with hostReply := some ⟨0, none⟩ } [e] := rfl

theorem withEvents_nil (s : State) : withEvents s [] = s := by simp [withEvents]

/-! ## `START` and `STOP` (46_session_tx.md R262, R263) -/

theorem execStart_of_started (h : s.linkEnable = true) : execStart s = .next (refuse .badRequest s) := if_pos h

theorem execStart_of_stopped (h : s.linkEnable = false) :
    execStart s = .next (accept (emit .started (sessionStart s))) :=
  if_neg (ne_true_of_eq_false h)

theorem stopNotice_eq (s : State) :
    stopNotice s = withEvents s (if s.pendValid then [.cmdCancelled s.pendDn s.pendValue] else []) := by
  unfold stopNotice
  split_ifs
  · rfl
  · exact (withEvents_nil s).symm

theorem closeDevice_eq (s : State) :
    closeDevice s = { s with devOut := s.devOut ++ (if s.linkState = .disconnected then [] else [.close]) } := by
  by_cases hdisc : s.linkState = .disconnected
  · rw [closeDevice, if_neg (not_not.mpr hdisc), if_pos hdisc, List.append_nil]
  · rw [closeDevice, if_pos hdisc, if_neg hdisc, pulse]

/-! ## `ISSUE` (46_session_tx.md R264) -/

theorem execIssue_of_wrong_role {dn : W16} (hrole : emits s.cfg dn = false) (v : W16) :
    execIssue dn v s = .next (refuse .roleViolation s) := by
  rw [execIssue, hrole]
  rfl

theorem execIssue_of_down {dn : W16} (hrole : emits s.cfg dn = true) (hdown : linkUp s = false) (v : W16) :
    execIssue dn v s = .next (refuse .linkNotReady s) := by
  rw [execIssue, hrole, hdown]
  rfl

/-- The third check: an exchange is pending, or `txq` has no room. -/
theorem issueBusy_iff :
    (s.pendValid || !txqRoom 1 s) = true ↔ s.pendValid = true ∨ s.cfg.txqDepth ≤ s.txq.length := by
  simp only [txqRoom, Bool.or_eq_true, Bool.not_eq_true', decide_eq_false_iff_not, Nat.succ_le_iff, Nat.not_lt]

theorem execIssue_of_busy {dn : W16} (hrole : emits s.cfg dn = true) (hup : linkUp s = true)
    (hbusy : s.pendValid = true ∨ s.cfg.txqDepth ≤ s.txq.length) (v : W16) :
    execIssue dn v s = .next (refuse .busy s) := by
  rw [execIssue, hrole, hup]
  exact if_pos (issueBusy_iff.mpr hbusy)

theorem execIssue_of_free {dn : W16} (hrole : emits s.cfg dn = true) (hup : linkUp s = true)
    (hpend : s.pendValid = false) (hroom : s.txq.length < s.cfg.txqDepth) (v : W16) :
    execIssue dn v s = .next (accept (emit (.issued dn v) (beginExchange dn v s))) := by
  have hfree : ¬ (s.pendValid || !txqRoom 1 s) = true := by
    rw [issueBusy_iff, not_or, Nat.not_le]
    exact ⟨ne_true_of_eq_false hpend, hroom⟩
  rw [execIssue, hrole, hup]
  exact if_neg hfree

theorem beginExchange_of_up (hup : linkUp s = true) (dn v : W16) :
    beginExchange dn v s =
      { s with
        txq := s.txq ++ [encodeCmd s.cfg.peerId dn v]
        pendValid := true
        pendDn := dn
        pendValue := v
        retryCnt := 0
        ackT0 := s.now } := by
  rw [beginExchange, send_up hup]
  rfl

end

/-! ## The statements -/

/-- Settles O29: both operations only answer, and `SNAPSHOT` answers with the copy of the status. -/
theorem nopAndSnapshotChangeNoRegister : Obligations.NopAndSnapshotChangeNoRegister :=
  ⟨fun _ => rfl, fun _ => rfl⟩

/-- Settles O30: the check of `link_enable`, and behind it the registers that `START` writes. -/
theorem startBeginsTheSession : Obligations.StartBeginsTheSession :=
  ⟨fun s hstarted => (execStart_of_started hstarted).trans (congrArg _ (refuse_eq .badRequest s)),
    fun s hstopped => (execStart_of_stopped hstopped).trans (congrArg _ (accept_emit .started (sessionStart s)))⟩

/-- Settles O31: the event of a cancelled exchange and the pulse to the device come first, then the reset, which keeps
the trace and the pulses. -/
theorem stopResetsAllButTime : Obligations.StopResetsAllButTime := by
  intro s
  have hstop : exec .stop s = .next (accept (emit .stopped (sessionStop (closeDevice (stopNotice s))))) := rfl
  rw [hstop, accept_emit, closeDevice_eq, stopNotice_eq]
  rfl

/-- Settles O32: the three checks in the rule's order, each with its refusal, then the exchange. -/
theorem issueChecksThenBegins : Obligations.IssueChecksThenBegins := by
  intro s dn v
  refine ⟨fun hrole => ?_, fun hrole hdown => ?_, fun hrole hup hbusy => ?_, fun hrole hup hpend hroom => ?_⟩
  · exact (execIssue_of_wrong_role hrole v).trans (congrArg _ (refuse_eq .roleViolation s))
  · exact (execIssue_of_down hrole hdown v).trans (congrArg _ (refuse_eq .linkNotReady s))
  · exact (execIssue_of_busy hrole hup hbusy v).trans (congrArg _ (refuse_eq .busy s))
  · refine (execIssue_of_free hrole hup hpend hroom v).trans ?_
    rw [accept_emit, beginExchange_of_up hup]

end Sys2Proof.Machine
end

section
/-! A stopped block (46_session_tx.md R263, 60_exceptions.md R319, R328). -/

namespace Sys2Proof.Machine

section
variable {s : State}

/-! ## The steps that ask for a link, without one -/

theorem verdict_of_down (hdown : linkUp s = false) : verdict s = .off := if_neg (ne_true_of_eq_false hdown)

theorem scanAction_of_down (hdown : linkUp s = false) : scanAction s = none := by
  rw [scanAction, verdict_of_down hdown]

theorem rxBits_of_down (hdown : linkUp s = false) (bits : List Bool) : rxBits bits s = s := by
  unfold rxBits
  split
  · rfl
  · exact rxChar_of_down hdown _ _ _

theorem lIdleEnabled_of_down (hdown : linkUp s = false) : lIdleEnabled s = false := by
  rw [lIdleEnabled, hdown, Bool.false_and]

theorem xFrameEnabled_of_down (hdown : linkUp s = false) : xFrameEnabled s = false := by
  rw [xFrameEnabled, frameReady_eq_false_iff.mpr (.inl hdown), Bool.and_false]

theorem xTimeoutEnabled_of_down (hdown : linkUp s = false) : xTimeoutEnabled s = false := by
  simp only [xTimeoutEnabled, hdown, Bool.false_and]

theorem txByteEnabled_of_down (hdown : linkUp s = false) : txByteEnabled s = false := by
  rw [txByteEnabled, hdown, Bool.false_and]

/-- A frame that waits in `fq` stays there (45_session_rx.md R220). -/
theorem xFrame_of_down (hdown : linkUp s = false) : xFrame s = .next s := by
  unfold xFrame
  split
  · rfl
  next f _ _ =>
    obtain ⟨body, hexec⟩ := exec_classify s f
    rw [hexec]
    exact onFrame_waits (frameReady_eq_false_iff.mpr (.inl hdown)) body

/-! ## The stopped block -/

/-- Without the supervisor no attempt to open the device is made (43_link_scanner.md R172). -/
theorem lOpenEnabled_of_stopped (hoff : s.linkEnable = false) : lOpenEnabled s = false := by
  rw [lOpenEnabled, hoff, Bool.and_false, Bool.false_and]

/-- `L-OPEN` asks for the supervisor, the device's answers for an attempt under way, every other of these steps for a
link. -/
theorem perform_of_stopped (hoff : s.linkEnable = false) (hdisc : s.linkState = .disconnected) {a : Action}
    (ha : a.isTimeOrHost = false) : perform a s = .next s := by
  have hdown : linkUp s = false := (linkUp_false_iff s).mpr (.inl hdisc)
  have hidle : s.linkState ≠ .connecting := by simp [hdisc]
  have hscan : ∀ b, scanAction s ≠ some b := by simp [scanAction_of_down hdown]
  cases a with
  | tick | host _ | rst => cases ha
  | rxChar b perr ferr => exact congrArg _ (rxChar_of_down hdown b _ ferr)
  | rxBits bits => exact congrArg _ (rxBits_of_down hdown bits)
  | devOpenOk => exact congrArg _ (devOpenOk_of_not_connecting hidle)
  | devOpenFail => exact congrArg _ (devOpenFail_of_not_connecting hidle)
  | devError => exact congrArg _ (devError_of_disconnected hdisc)
  | lOpen => exact congrArg _ (lOpen_of_not_enabled (ne_true_of_eq_false (lOpenEnabled_of_stopped hoff)))
  | lIdle => exact congrArg _ (lIdle_of_not_enabled (ne_true_of_eq_false (lIdleEnabled_of_down hdown)))
  | sSkip => exact congrArg _ (sSkip_of_not_enabled (hscan _))
  | sEmit => exact congrArg _ (sEmit_of_not_enabled (hscan _))
  | sReject => exact congrArg _ (sReject_of_not_enabled (hscan _))
  | xFrame => exact xFrame_of_down hdown
  | xTimeout => exact congrArg _ (xTimeout_of_not_enabled (ne_true_of_eq_false (xTimeoutEnabled_of_down hdown)))
  | txByte => exact congrArg _ (txByte_of_not_enabled (.inl hdown))

theorem phaseAction_of_stopped (hoff : s.linkEnable = false) (hdown : linkUp s = false) (p : Phase) :
    phaseAction s p = none := by
  cases p with
  | link =>
    simp [phaseAction, linkAction, lOpenEnabled_of_stopped hoff, scanAction_of_down hdown, lIdleEnabled_of_down hdown]
  | session => simp [phaseAction, sessionAction, xFrameEnabled_of_down hdown, xTimeoutEnabled_of_down hdown]
  | transmit => simp [phaseAction, transmitAction, txByteEnabled_of_down hdown]

end

/-- Settles O60: no agent's step does anything, and no agent has an enabled one for its turn. -/
theorem stoppedBlockIsSilent : Obligations.StoppedBlockIsSilent := by
  intro s hoff hdisc
  have hdown : linkUp s = false := (linkUp_false_iff s).mpr (.inl hdisc)
  refine ⟨fun a r hsched ha => ?_, ?_⟩
  · exact (step_of_sched hsched).trans (perform_of_stopped (s := beginStep s) hoff hdisc ha)
  · rcases firstTurn_cases s s.phase.turns with ⟨p, -, hp⟩ | ⟨-, htick⟩
    · exact nomatch (phaseAction_of_stopped hoff hdown p).symm.trans hp
    · exact htick

end Sys2Proof.Machine
end

section
/-! An exchange without an answer (46_session_tx.md R268, R269, R272). -/

namespace Sys2Proof.Machine

/-- `ACK_TIMEOUT` ticks later, with the line drained: where the `X-TIMEOUT` of a silent round is taken. -/
def waited (s : State) : State :=
  { s with now := s.now + BitVec.ofNat 32 s.cfg.ackTimeout, txq := [], txIdx := 0, txActive := false }

/-- The state after `n` resends of the exchange that `s` has just begun, written out (46_session_tx.md R269). Nothing
else is touched. -/
def afterResends (n : Nat) (s : State) : State :=
  { s with
    now := s.now + BitVec.ofNat 32 (n * s.cfg.ackTimeout)
    ackT0 := s.now + BitVec.ofNat 32 (n * s.cfg.ackTimeout)
    retryCnt := BitVec.ofNat 8 n
    txq := if n = 0 then s.txq else [encodeCmd s.cfg.peerId s.pendDn s.pendValue]
    txIdx := if n = 0 then s.txIdx else 0
    txActive := if n = 0 then s.txActive else false
    events := s.events ++ retryEvents s.pendDn n }

/-- The state after the last timeout of the exchange that `s` has just begun, written out (46_session_tx.md R269). -/
def afterGivingUp (s : State) : State :=
  { s with
    now := s.now + BitVec.ofNat 32 ((s.cfg.maxRetries + 1) * s.cfg.ackTimeout)
    ackT0 := s.now + BitVec.ofNat 32 (s.cfg.maxRetries * s.cfg.ackTimeout)
    pendValid := false
    retryCnt := 0
    txq := []
    txIdx := 0
    txActive := false
    events := s.events ++ retryEvents s.pendDn s.cfg.maxRetries
      ++ [.error (.ackTimeout s.pendDn (BitVec.ofNat 8 s.cfg.maxRetries)),
        .error (.retryExhausted s.pendDn s.pendValue)] }

section
variable {s : State}

theorem silentRound_eq (s : State) : silentRound s = xTimeout (waited s) := rfl

theorem config_ok_exchange_bounds {c : Config} (hc : c.ok = true) : c.ackTimeout < 2 ^ 31 ∧ 2 ≤ c.txqDepth := by
  simp only [Config.ok, Bool.and_eq_true, decide_eq_true_eq] at hc
  omega

/-- Rounds add up, modulo 2^32. -/
theorem now_add_round (t : W32) (n T : Nat) :
    t + BitVec.ofNat 32 (n * T) + BitVec.ofNat 32 T = t + BitVec.ofNat 32 ((n + 1) * T) := by
  rw [BitVec.add_assoc, ← BitVec.ofNat_add, Nat.succ_mul]

theorem toNat_resends {n : Nat} (hok : s.cfg.ok = true) (hn : n ≤ s.cfg.maxRetries) :
    (BitVec.ofNat 8 n).toNat = n := by
  obtain ⟨-, -, hmax, -⟩ := config_ok_bounds hok
  rw [BitVec.toNat_ofNat, Nat.mod_eq_of_lt (by omega)]

/-- Once the timer's time has passed over a drained line, `X-TIMEOUT` is enabled (45_session_rx.md R220). -/
theorem xTimeoutEnabled_waited (hok : s.cfg.ok = true) (hup : linkUp s = true) (hpend : s.pendValid = true)
    (hfq : s.fq = []) (htimer : s.ackT0 = s.now) : xTimeoutEnabled (waited s) = true := by
  obtain ⟨hshort, hdepth⟩ := config_ok_exchange_bounds hok
  have hage : (elapsed (waited s) s.ackT0).toNat = s.cfg.ackTimeout :=
    toNat_elapsed_of_lt (by rw [htimer]; rfl) (by omega)
  exact xTimeoutEnabled_iff.mpr ⟨hup, hpend, hage.ge, hfq, Nat.zero_lt_of_lt hdepth⟩

/-- What stood in `txq` before a round has no part in it: the line is drained. -/
theorem waited_afterResends (n : Nat) (s : State) :
    waited (afterResends n s) =
      { s with
        now := s.now + BitVec.ofNat 32 ((n + 1) * s.cfg.ackTimeout)
        ackT0 := s.now + BitVec.ofNat 32 (n * s.cfg.ackTimeout)
        retryCnt := BitVec.ofNat 8 n
        txq := []
        txIdx := 0
        txActive := false
        events := s.events ++ retryEvents s.pendDn n } := by
  rw [← now_add_round]
  rfl

theorem xTimeoutEnabled_waited_afterResends (hok : s.cfg.ok = true) (hup : linkUp s = true) (hpend : s.pendValid = true)
    (hfq : s.fq = []) (n : Nat) : xTimeoutEnabled (waited (afterResends n s)) = true :=
  xTimeoutEnabled_waited (s := afterResends n s) hok hup hpend hfq rfl

theorem silentRound_afterResends (hok : s.cfg.ok = true) (hup : linkUp s = true) (hpend : s.pendValid = true)
    (hfq : s.fq = []) {n : Nat} (hn : n < s.cfg.maxRetries) :
    silentRound (afterResends n s) = afterResends (n + 1) s := by
  have hleft : (BitVec.ofNat 8 n).toNat < s.cfg.maxRetries := by rwa [toNat_resends hok hn.le]
  rw [silentRound_eq, xTimeout_resends (xTimeoutEnabled_waited_afterResends hok hup hpend hfq n) hleft,
    waited_afterResends]
  simp [afterResends, withEvents, retryEvents, BitVec.ofNat_add]

theorem silentRound_afterLastResend (hok : s.cfg.ok = true) (hup : linkUp s = true) (hpend : s.pendValid = true)
    (hfq : s.fq = []) : silentRound (afterResends s.cfg.maxRetries s) = afterGivingUp s := by
  have hspent : s.cfg.maxRetries ≤ (BitVec.ofNat 8 s.cfg.maxRetries).toNat := (toNat_resends hok le_rfl).ge
  rw [silentRound_eq, xTimeout_gives_up (xTimeoutEnabled_waited_afterResends hok hup hpend hfq _) hspent,
    waited_afterResends]
  rfl

theorem afterResends_zero (hretry : s.retryCnt = 0) (htimer : s.ackT0 = s.now) : afterResends 0 s = s := by
  have hnow : s.now + BitVec.ofNat 32 (0 * s.cfg.ackTimeout) = s.now := by simp
  have hcount : BitVec.ofNat 8 0 = s.retryCnt := hretry.symm
  simp only [afterResends, hnow, hcount, retryEvents, List.append_nil, if_true]
  exact congrArg (fun t => { s with ackT0 := t }) htimer.symm

/-- The resends of an unanswered exchange, counted. -/
theorem silentRounds_eq_afterResends (hok : s.cfg.ok = true) (hup : linkUp s = true) (hpend : s.pendValid = true)
    (hretry : s.retryCnt = 0) (hfq : s.fq = []) (htimer : s.ackT0 = s.now) {n : Nat} (hn : n ≤ s.cfg.maxRetries) :
    silentRounds n s = afterResends n s := by
  induction n with
  | zero => exact (afterResends_zero hretry htimer).symm
  | succ n ih => rw [silentRounds, ih (Nat.le_of_lt hn), silentRound_afterResends hok hup hpend hfq hn]

end

/-- Settles O51: `MAX_RETRIES` rounds are resends, by induction, and the round after them gives up. -/
theorem unansweredExchangeEndsInRetryExhausted : Obligations.UnansweredExchangeEndsInRetryExhausted := by
  intro s hok hup hpend hretry hfq htimer
  have hrounds : ∀ {n}, n ≤ s.cfg.maxRetries → silentRounds n s = afterResends n s :=
    silentRounds_eq_afterResends hok hup hpend hretry hfq htimer
  have hlast : silentRounds (s.cfg.maxRetries + 1) s = afterGivingUp s := by
    rw [silentRounds, hrounds le_rfl, silentRound_afterLastResend hok hup hpend hfq]
  refine ⟨fun n hn => ?_, ?_⟩
  · rw [hrounds hn]
    exact ⟨hpend, toNat_resends hok hn, rfl, rfl, fun hone => if_neg (by omega), rfl⟩
  · rw [hlast]
    exact ⟨rfl, rfl, rfl, rfl, rfl, rfl, rfl, rfl⟩

end Sys2Proof.Machine
end

section
/-! The capability table of the two roles (60_exceptions.md R320). -/

namespace Sys2Proof.Machine

/-! ## The five classes of data numbers -/

/-- The data numbers of the reports. -/
def reportDns : List W16 := [0x0001, 0x0002, 0x0003]

/-- The data numbers of the commands. -/
def commandDns : List W16 := [0x0010, 0x0011]

section
variable (c : Config)

/-- The data numbers of the handshake requests. -/
def requestDns : List W16 := [c.dnPing, c.dnStatusReq, c.dnControlReq]

/-- The data numbers of the handshake responses. -/
def responseDns : List W16 := [c.dnPong, c.dnStatusRsp, c.dnControlAck]

/-- The data numbers of the handshake variant's commands. -/
def handshakeCommandDns : List W16 := [c.dnFloorCmd, c.dnDoorCmd]

/-- The base registry is made of the reports and the commands. -/
theorem baseDns_eq : baseDns = reportDns ++ commandDns := rfl

/-- The handshake registry is made of the requests, the responses and the handshake variant's commands. -/
theorem handshakeDns_perm : (requestDns c ++ responseDns c ++ handshakeCommandDns c).Perm c.handshakeDns := by
  refine List.perm_iff_count.mpr fun d => ?_
  simp only [requestDns, responseDns, handshakeCommandDns, Config.handshakeDns, List.cons_append, List.nil_append,
    List.count_cons, List.count_nil]
  omega

end

section
variable {c : Config} {dn : W16}

theorem mem_handshakeDns_iff :
    dn ∈ c.handshakeDns ↔ dn ∈ requestDns c ∨ dn ∈ responseDns c ∨ dn ∈ handshakeCommandDns c := by
  simp only [← (handshakeDns_perm c).mem_iff, List.mem_append, or_assoc]

/-- The premises on the parameters put no data number into two classes (00_scope.md R7). -/
theorem classes_disjoint (hok : c.ok = true) :
    [reportDns, commandDns, requestDns c, responseDns c, handshakeCommandDns c].Pairwise List.Disjoint := by
  obtain ⟨hnodup, houtside⟩ := Config.handshakeDns_of_ok hok
  have hbase : (reportDns ++ commandDns).Nodup := by decide
  have hhandshake : (requestDns c ++ responseDns c ++ handshakeCommandDns c).Nodup :=
    (handshakeDns_perm c).nodup_iff.mpr hnodup
  have hapart : (reportDns ++ commandDns).Disjoint (requestDns c ++ responseDns c ++ handshakeCommandDns c) :=
    fun d hd hd' => houtside d ((handshakeDns_perm c).mem_iff.mp hd') hd
  have hall := List.nodup_append'.mpr ⟨hbase, hhandshake, hapart⟩
  refine (List.nodup_flatten.mp ?_).2
  simpa only [List.flatten_cons, List.flatten_nil, List.append_nil, List.append_assoc] using hall

/-! ## What a role emits and consumes, by class -/

theorem emits_iff :
    emits c dn = true ↔
      (c.role = .dataSource ∧ dn ∈ reportDns) ∨ (c.role = .controller ∧ dn ∈ commandDns)
        ∨ (c.handshakeEn = true ∧ (dn ∈ requestDns c ∨ (c.role = .controller ∧ dn ∈ handshakeCommandDns c))) := by
  cases hrole : c.role <;>
    simp [emits, hrole, reportDns, commandDns, requestDns, handshakeCommandDns, or_assoc]

theorem consumes_iff :
    consumes c dn = true ↔
      (c.role = .controller ∧ dn ∈ reportDns) ∨ (c.role = .dataSource ∧ dn ∈ commandDns)
        ∨ (c.handshakeEn = true
          ∧ (dn ∈ requestDns c ∨ dn ∈ responseDns c ∨ (c.role = .dataSource ∧ dn ∈ handshakeCommandDns c))) := by
  cases hrole : c.role
  · simp [consumes, hrole, commandDns, mem_handshakeDns_iff]
  · simp [consumes, hrole, reportDns, requestDns, responseDns, or_assoc]

end

/-- Settles O16: a data number of one class is in no other, so each row leaves one disjunct of what a role emits and one
of what it consumes; outside the registries in force there is none. -/
theorem capabilityTable : Obligations.CapabilityTable := by
  intro c dn hok
  have hclasses := classes_disjoint hok
  simp only [List.pairwise_cons, List.forall_mem_cons, List.not_mem_nil, false_imp_iff, implies_true,
    List.Pairwise.nil, and_true] at hclasses
  obtain ⟨⟨hrc, hrq, hrs, hrh⟩, ⟨hcq, hcs, hch⟩, ⟨hqs, hqh⟩, hsh⟩ := hclasses
  have hnot : ∀ {l l' : List W16}, l.Disjoint l' → dn ∈ l → dn ∉ l' := fun hdisjoint hl => hdisjoint hl
  simp only [Bool.eq_false_iff, ne_eq, emits_iff, consumes_iff]
  refine ⟨fun hreport => ?_, fun hcommand => ?_, fun hen hrequest => ?_, fun hen hresponse => ?_,
    fun hen hvariant => ?_, fun hunknown => ?_⟩
  · have hmem : dn ∈ reportDns := hreport
    simp [hmem, hnot hrc hmem, hnot hrq hmem, hnot hrs hmem, hnot hrh hmem]
  · have hmem : dn ∈ commandDns := hcommand
    simp [hmem, hnot hrc.symm hmem, hnot hcq hmem, hnot hcs hmem, hnot hch hmem]
  · have hmem : dn ∈ requestDns c := hrequest
    simp [hen, hmem]
  · have hmem : dn ∈ responseDns c := hresponse
    simp [hen, hmem, hnot hrs.symm hmem, hnot hcs.symm hmem, hnot hqs.symm hmem, hnot hsh hmem]
  · have hmem : dn ∈ handshakeCommandDns c := hvariant
    simp [hen, hmem, hnot hrh.symm hmem, hnot hch.symm hmem, hnot hqh.symm hmem, hnot hsh.symm hmem]
  · have hout : (dn ∉ reportDns ∧ dn ∉ commandDns) ∧ (c.handshakeEn = true → dn ∉ c.handshakeDns) := by
      simpa [Config.knownDn, baseDns_eq] using hunknown
    obtain ⟨⟨hreport, hcommand⟩, hhandshake⟩ := hout
    rw [mem_handshakeDns_iff] at hhandshake
    tauto

end Sys2Proof.Machine
end

section
/-! The outputs: the event trace, the line, the answer on the host port; and that every step goes on (60_exceptions.md
R300, R302, R324, 20_memory.md R77). -/

namespace Sys2Proof.Machine

/-- What every operation does with the outputs, apart from `TxByte`, reset and the answer to the host: events are added
at the end of the trace, and the line and the answer on the host port are left as they are. -/
structure Appends (s t : State) : Prop where
  events : s.events <+: t.events
  line : t.lineOut = s.lineOut
  answer : t.hostReply = s.hostReply

theorem Appends.refl (s : State) : Appends s s := ⟨List.prefix_rfl, rfl, rfl⟩

section
variable {s t : State}

/-! ## The shared operations -/

theorem appends_withEvents (h : Appends s t) (es : List Event) : Appends s (withEvents t es) :=
  { h with events := h.events.trans (List.prefix_append t.events es) }

theorem appends_emit (h : Appends s t) (e : Event) : Appends s (emit e t) := appends_withEvents h [e]
theorem appends_raise (h : Appends s t) (e : Error) : Appends s (raise e t) := appends_emit h (.error e)

theorem appends_send (h : Appends s t) (B : List Byte) : Appends s (send B t) := by
  unfold send
  split
  · exact { h with }
  · exact appends_raise h _

theorem appends_sendAck (h : Appends s t) : Appends s (sendAck t) := appends_emit (appends_send h _) _

theorem appends_dedupUpdate (h : Appends s t) (dn v : W16) : Appends s (dedupUpdate dn v t) := by
  unfold dedupUpdate
  split
  · exact h
  · exact { h with }

theorem appends_setSess (h : Appends s t) (new : SessState) : Appends s (setSess new t) := by
  unfold setSess
  split
  · exact h
  · exact { appends_emit h _ with }

theorem appends_exchangeSuccess (h : Appends s t) : Appends s (exchangeSuccess t) :=
  { appends_emit h (.cmdOk t.pendDn t.pendValue t.retryCnt) with }

/-! ## The effects of the frames -/

theorem appends_currentFloorReport (v : W16) (h : Appends s t) : Appends s (currentFloorReport v t) := by
  rw [currentFloorReport_eq]
  exact { appends_withEvents h _ with }

theorem appends_loadReport (v : W16) (h : Appends s t) : Appends s (loadReport v t) := by
  rw [loadReport_eq]
  exact { appends_withEvents h _ with }

theorem appends_targetFloorReport (v : W16) (h : Appends s t) : Appends s (targetFloorReport v t) := by
  unfold targetFloorReport
  split
  · split
    · exact { appends_emit h _ with }
    · exact h
  split
  · exact { appends_emit h _ with }
  · split
    · exact { appends_emit h _ with }
    · exact { h with }

theorem appends_doorCommand (dn v : W16) (h : Appends s t) : Appends s (doorCommand dn v t) := by
  by_cases hv : v ≤ 0x0002
  · rw [doorCommand_named dn t hv rfl]
    exact { appends_withEvents h _ with }
  · rw [doorCommand_reserved dn t (BitVec.not_le.mp hv)]
    exact appends_withEvents h _

theorem appends_ackEffect (st : Station) (h : Appends s t) : Appends s (ackEffect st t) := by
  unfold ackEffect
  split
  · exact appends_exchangeSuccess h
  · exact appends_emit h _

theorem appends_advance (old new : SessState) (h : Appends s t) : Appends s (advance old new t) := by
  unfold advance
  split
  · exact appends_setSess h new
  · exact h

theorem appends_handshakeRequest (req rsp v : W16) (old new : SessState) (h : Appends s t) :
    Appends s (handshakeRequest req rsp v old new t) :=
  appends_advance old new (appends_emit (appends_send h _) _)

theorem appends_handshakeResponse (dn : W16) (old new : SessState) (h : Appends s t) :
    Appends s (handshakeResponse dn old new t) := by
  unfold handshakeResponse
  split
  · exact appends_advance old new (appends_exchangeSuccess h)
  · exact appends_advance old new h

/-! ## Every frame -/

theorem appends_onFrame {body : State → State} (hbody : ∀ {u}, Appends s u → Appends s (body u)) :
    AllNext (Appends s) (onFrame body s) :=
  allNext_onFrame (Appends.refl s) fun _ => hbody { Appends.refl s with }

theorem appends_command {body : State → State} (hbody : ∀ {u}, Appends s u → Appends s (body u)) (st : Station)
    (dn v : W16) : AllNext (Appends s) (onFrame (onCommand st dn v body) s) := by
  refine appends_onFrame fun {u} hu => ?_
  rcases onCommand_cases st dn v body u with ⟨_, he⟩ | ⟨_, _, he⟩ | ⟨_, _, he⟩ <;> rw [he]
  · exact appends_emit hu _
  · exact appends_emit (appends_sendAck hu) _
  · exact hbody (appends_emit (appends_dedupUpdate (appends_sendAck hu) dn v) _)

theorem appends_consumedCommand {body : State → State} (hbody : ∀ {u}, Appends s u → Appends s (body u))
    (st : Station) (dn v : W16) : AllNext (Appends s) (onFrame (onCommand st dn v (ifConsumed dn v body)) s) := by
  refine appends_command (fun {u} hu => ?_) st dn v
  rcases ifConsumed_cases dn v body u with ⟨_, he⟩ | ⟨_, he⟩ <;> rw [he]
  · exact hbody hu
  · exact appends_emit hu _

theorem appends_exec_frame {i : Instr} (hi : i.isHostOp = false) : AllNext (Appends s) (exec i s) := by
  cases i with
  | curFloor st v => exact appends_consumedCommand (appends_currentFloorReport v) st _ v
  | tgtFloor st v => exact appends_consumedCommand (appends_targetFloorReport v) st _ v
  | tgtNone st => exact appends_consumedCommand (appends_targetFloorReport _) st _ _
  | load st v => exact appends_consumedCommand (appends_loadReport v) st _ v
  | floorSet st v => exact appends_consumedCommand (appends_emit · _) st _ v
  | doorCtl st v => exact appends_consumedCommand (appends_doorCommand _ v) st _ v
  | doorStop st => exact appends_consumedCommand (appends_doorCommand _ _) st _ _
  | doorOpen st => exact appends_consumedCommand (appends_doorCommand _ _) st _ _
  | doorClose st => exact appends_consumedCommand (appends_doorCommand _ _) st _ _
  | floorCmd st v => exact appends_consumedCommand (appends_emit · _) st _ v
  | doorCmd st v => exact appends_consumedCommand (appends_doorCommand _ v) st _ v
  | unknownDn st dn v => exact appends_command (appends_emit · _) st dn v
  | ping st v => exact appends_command (appends_handshakeRequest _ _ v _ _) st _ v
  | statusReq st v => exact appends_command (appends_handshakeRequest _ _ v _ _) st _ v
  | controlReq st v => exact appends_command (appends_handshakeRequest _ _ v _ _) st _ v
  | pong st v => exact appends_command (appends_handshakeResponse _ _ _) st _ v
  | statusRsp st v => exact appends_command (appends_handshakeResponse _ _ _) st _ v
  | controlAck st v => exact appends_command (appends_handshakeResponse _ _ _) st _ v
  | ack st => exact appends_onFrame (appends_ackEffect st)
  | nak st => exact appends_onFrame (appends_emit · _)
  | nop | start | stop | issue _ _ | snapshot => cases hi

theorem appends_xFrame : AllNext (Appends s) (xFrame s) := by
  unfold xFrame
  split
  · exact allNext_next (Appends.refl s)
  · exact appends_exec_frame (classify_isHostOp s.cfg _)

/-! ## The link, the scanner, the timer -/

theorem appends_linkDown (h : Appends s t) (cause : LinkCause) : Appends s (linkDown cause t) := by
  have hevents : t.events <+: (afterLinkDown cause t).events := by simp [afterLinkDown]
  rw [linkDown_eq_afterLinkDown]
  exact { h with events := h.events.trans hevents }

theorem appends_softFail (h : Appends s t) : Appends s (softFail t) := by
  unfold softFail
  split
  · exact appends_linkDown (appends_raise h _) _
  · exact { h with }

theorem appends_rxChar (b : Byte) (perr ferr : Bool) : Appends s (rxChar b perr ferr s) := by
  have hheard : Appends s { s with lastRxTime := s.now } := { Appends.refl s with }
  unfold rxChar
  split
  · dsimp only
    split
    · exact appends_softFail (appends_raise hheard _)
    split
    · exact appends_softFail (appends_raise hheard _)
    · exact { hheard with }
  · exact Appends.refl s

theorem appends_rxBits (bits : List Bool) : Appends s (rxBits bits s) := by
  unfold rxBits
  split
  · exact Appends.refl s
  · exact appends_rxChar _ _ _

theorem appends_lOpen : Appends s (lOpen s) := by
  unfold lOpen
  split
  · exact { appends_emit (Appends.refl s) _ with }
  · exact Appends.refl s

theorem appends_devOpenOk : Appends s (devOpenOk s) := by
  unfold devOpenOk
  split
  · exact { appends_emit (Appends.refl s) _ with }
  · exact Appends.refl s

theorem appends_devOpenFail : Appends s (devOpenFail s) := by
  have hfailed : Appends s
      (emit (.openFail (failedAttempt s)) { s with linkState := .disconnected, attemptCnt := failedAttempt s }) :=
    { appends_emit (Appends.refl s) _ with }
  unfold devOpenFail
  split
  · dsimp only
    split
    · exact { appends_raise hfailed _ with }
    · exact { hfailed with }
  · exact Appends.refl s

theorem appends_devError : Appends s (devError s) := by
  unfold devError
  split
  · exact appends_linkDown (appends_raise (Appends.refl s) _) _
  split
  · exact appends_devOpenFail
  · exact Appends.refl s

theorem appends_lIdle : Appends s (lIdle s) := by
  unfold lIdle
  split
  · exact appends_linkDown (appends_raise (Appends.refl s) _) _
  · exact Appends.refl s

theorem appends_sSkip : Appends s (sSkip s) := by
  unfold sSkip
  split
  · exact { appends_raise (Appends.refl s) _ with }
  · exact Appends.refl s

theorem appends_sEmit : Appends s (sEmit s) := by
  unfold sEmit
  split
  next f _ _ =>
    have hpushed : Appends s (fqPush f s) := { Appends.refl s with }
    exact { appends_emit hpushed _ with }
  next => exact Appends.refl s

theorem appends_sReject : Appends s (sReject s) := by
  unfold sReject
  split
  · exact { appends_raise (Appends.refl s) _ with }
  · exact Appends.refl s

theorem appends_xTimeout : Appends s (xTimeout s) := by
  by_cases hen : xTimeoutEnabled s = true
  · rcases Nat.lt_or_ge s.retryCnt.toNat s.cfg.maxRetries with hleft | hspent
    · rw [xTimeout_resends hen hleft]
      exact { appends_withEvents (Appends.refl s) _ with }
    · rw [xTimeout_gives_up hen hspent]
      exact { appends_withEvents (Appends.refl s) _ with }
  · rw [xTimeout_of_not_enabled hen]
    exact Appends.refl s

/-! ## The host operations -/

/-- What `hr_status` can be: accepted, or one of the four refusals (60_exceptions.md R324). -/
abbrev IsHostStatus (c : BitVec 4) : Prop := c = 0 ∨ c = 8 ∨ c = 10 ∨ c = 11 ∨ c = 15

/-- What a host operation does with the outputs: events are added at the end of the trace, and then the host port is
answered, once. -/
def Answered (s t : State) : Prop :=
  ∃ (u : State) (c : BitVec 4) (k : Option Snapshot), Appends s u ∧ IsHostStatus c ∧ t = reply c k u

theorem answered_accept (h : Appends s t) : Answered s (accept t) := ⟨t, 0, none, h, .inl rfl, rfl⟩

theorem answered_refuse {e : Error} (he : IsHostStatus e.code) : Answered s (refuse e s) :=
  ⟨raise e s, e.code, none, appends_raise (Appends.refl s) e, he, rfl⟩

theorem answered_badRequest : Answered s (refuse .badRequest s) := answered_refuse (by decide)

theorem answered_execStart : AllNext (Answered s) (execStart s) := by
  unfold execStart
  split
  · exact allNext_next answered_badRequest
  · exact allNext_next (answered_accept ({ appends_emit (Appends.refl s) _ with }))

theorem answered_execStop : AllNext (Answered s) (execStop s) := by
  have hbefore : Appends s (closeDevice (stopNotice s)) := by
    rw [closeDevice_eq, stopNotice_eq]
    exact { appends_withEvents (Appends.refl s) _ with }
  exact allNext_next (answered_accept ({ appends_emit hbefore _ with }))

theorem answered_execIssue (dn v : W16) : AllNext (Answered s) (execIssue dn v s) := by
  unfold execIssue
  split
  · exact allNext_next (answered_refuse (by decide))
  split
  · exact allNext_next (answered_refuse (by decide))
  split
  · exact allNext_next (answered_refuse (by decide))
  · have hsent : Appends s (beginExchange dn v s) :=
      { appends_send (Appends.refl s) (encodeCmd s.cfg.peerId dn v) with }
    exact allNext_next (answered_accept (appends_emit hsent _))

theorem answered_hostOp (w : BitVec 36) : AllNext (Answered s) (hostOp w s) := by
  unfold hostOp
  split
  next i hi =>
    have hop := decodeHop_isHostOp hi
    cases i with
    | nop => exact allNext_next (answered_accept (Appends.refl s))
    | start => exact answered_execStart
    | stop => exact answered_execStop
    | issue dn v => exact answered_execIssue dn v
    | snapshot => exact allNext_next ⟨s, 0, some (snapshotOf s), Appends.refl s, .inl rfl, rfl⟩
    | _ => cases hop
  next => exact allNext_next answered_badRequest

/-! ## The transmitter -/

/-- What a byte sent does with the outputs: it is put on the line. -/
def SendsByte (s t : State) : Prop :=
  ∃ b, t.lineOut = s.lineOut ++ [b] ∧ t.events = s.events ∧ t.hostReply = s.hostReply

theorem txByte_outputs : Appends s (txByte s) ∨ SendsByte s (txByte s) := by
  unfold txByte
  split
  · split
    · exact .inl (Appends.refl s)
    split
    · exact .inl (Appends.refl s)
    next b _ =>
      dsimp only
      split
      · exact .inr ⟨b, rfl, rfl, rfl⟩
      · exact .inr ⟨b, rfl, rfl, rfl⟩
  · exact .inl (Appends.refl s)

/-! ## Every step -/

/-- All that a step can do with the outputs, and whose step it is that does more than add events. -/
theorem outputs_perform (a : Action) :
    AllNext (fun t => Appends s t ∨ ((∃ w, a = .host w) ∧ Answered s t) ∨ (a = .txByte ∧ SendsByte s t)
      ∨ (a = .rst ∧ t = rst s)) (perform a s) := by
  cases a with
  | host w => exact fun t ht => .inr (.inl ⟨⟨w, rfl⟩, answered_hostOp w t ht⟩)
  | txByte => exact allNext_next (txByte_outputs.imp_right fun hsent => .inr (.inl ⟨rfl, hsent⟩))
  | rst => exact allNext_next (.inr (.inr (.inr ⟨rfl, rfl⟩)))
  | xFrame => exact fun t ht => .inl (appends_xFrame t ht)
  | tick => exact allNext_next (.inl { Appends.refl s with })
  | rxChar b perr ferr => exact allNext_next (.inl (appends_rxChar b _ ferr))
  | rxBits bits => exact allNext_next (.inl (appends_rxBits bits))
  | devOpenOk => exact allNext_next (.inl appends_devOpenOk)
  | devOpenFail => exact allNext_next (.inl appends_devOpenFail)
  | devError => exact allNext_next (.inl appends_devError)
  | lOpen => exact allNext_next (.inl appends_lOpen)
  | lIdle => exact allNext_next (.inl appends_lIdle)
  | sSkip => exact allNext_next (.inl appends_sSkip)
  | sEmit => exact allNext_next (.inl appends_sEmit)
  | sReject => exact allNext_next (.inl appends_sReject)
  | xTimeout => exact allNext_next (.inl appends_xTimeout)

theorem events_perform {a : Action} (hrst : a ≠ .rst) :
    AllNext (fun t => s.events <+: t.events) (perform a s) := by
  intro t ht
  rcases outputs_perform a t ht with h | ⟨_, u, c, k, hu, _, rfl⟩ | ⟨_, b, _, hevents, _⟩ | ⟨ha, _⟩
  · exact h.events
  · exact hu.events
  · exact hevents ▸ List.prefix_rfl
  · exact absurd ha hrst

theorem lineOut_perform {a : Action} (htx : a ≠ .txByte) :
    AllNext (fun t => t.lineOut = s.lineOut) (perform a s) := by
  intro t ht
  rcases outputs_perform a t ht with h | ⟨_, u, c, k, hu, _, rfl⟩ | ⟨ha, _⟩ | ⟨_, rfl⟩
  · exact h.line
  · exact hu.line
  · exact absurd ha htx
  · rfl

/-- An answer on the host port is the one that was there, or one of the five of 60_exceptions.md R324. -/
theorem hostReply_perform (a : Action) :
    AllNext (fun t => ∀ r, t.hostReply = some r → s.hostReply = some r ∨ IsHostStatus r.status) (perform a s) := by
  intro t ht r hr
  rcases outputs_perform a t ht with h | ⟨_, u, c, k, _, hc, rfl⟩ | ⟨_, b, _, _, hanswer⟩ | ⟨_, rfl⟩
  · exact .inl (h.answer ▸ hr)
  · cases hr
    exact .inr hc
  · exact .inl (hanswer ▸ hr)
  · cases hr

/-! ## Every step goes on (60_exceptions.md R324) -/

theorem onFrame_goesOn (body : State → State) (s : State) : ∃ t, onFrame body s = .next t := by
  cases hready : frameReady s with
  | true => exact ⟨_, onFrame_ready hready body⟩
  | false => exact ⟨_, onFrame_waits hready body⟩

theorem xFrame_goesOn (s : State) : ∃ t, xFrame s = .next t := by
  unfold xFrame
  split
  · exact ⟨s, rfl⟩
  next f _ _ =>
    obtain ⟨body, hexec⟩ := exec_classify s f
    exact hexec ▸ onFrame_goesOn body s

theorem execStart_goesOn (s : State) : ∃ t, execStart s = .next t := by
  cases hstarted : s.linkEnable with
  | true => exact ⟨_, execStart_of_started hstarted⟩
  | false => exact ⟨_, execStart_of_stopped hstarted⟩

theorem execIssue_goesOn (dn v : W16) (s : State) : ∃ t, execIssue dn v s = .next t := by
  unfold execIssue
  split
  · exact ⟨_, rfl⟩
  split
  · exact ⟨_, rfl⟩
  split
  · exact ⟨_, rfl⟩
  · exact ⟨_, rfl⟩

/-- A reserved operation code is refused, and so is no stop (60_exceptions.md R317). -/
theorem hostOp_goesOn (w : BitVec 36) (s : State) : ∃ t, hostOp w s = .next t := by
  unfold hostOp
  split
  next i hi =>
    have hop := decodeHop_isHostOp hi
    cases i with
    | nop | stop | snapshot => exact ⟨_, rfl⟩
    | start => exact execStart_goesOn s
    | issue dn v => exact execIssue_goesOn dn v s
    | _ => cases hop
  next => exact ⟨_, rfl⟩

/-- Only `X-FRAME` and a host operation run `exec`; the other actions are functions of the state. -/
theorem perform_goesOn (a : Action) (s : State) : ∃ t, perform a s = .next t := by
  cases a with
  | host w => exact hostOp_goesOn w s
  | xFrame => exact xFrame_goesOn s
  | _ => exact ⟨_, rfl⟩

end

theorem surfaced_iff (e : Error) : e.surfaced = true ↔ e.code = 6 ∨ e.code = 9 := by
  cases e <;> simp [Error.surfaced, Error.code]

/-! ## The statements -/

/-- Settles O59: reset alone empties the trace, by its definition, and `TxByte` alone writes the line. -/
theorem outputsOnlyGrow : Obligations.OutputsOnlyGrow := by
  intro s t hstep
  refine ⟨fun hrst => ?_, fun hrst => ?_, fun htx => lineOut_perform (s := beginStep s) htx t hstep, fun htx => ?_⟩
  · obtain ⟨es, hes⟩ := events_perform (s := beginStep s) hrst t hstep
    exact ⟨es, hes.symm⟩
  · rw [step, hrst] at hstep
    cases hstep
    rfl
  · rw [step, htx] at hstep
    cases hstep
    rcases txByte_outputs (s := beginStep s) with h | ⟨b, hline, _⟩
    · exact .inl h.line
    · exact .inr ⟨b, hline⟩

/-- Settles O55: every action goes on; and since the last answer on the host port ends when a step begins, an answer after
the step is its own. -/
theorem noErrorStopsTheBlock : Obligations.NoErrorStopsTheBlock :=
  ⟨fun s => perform_goesOn (nextAction s) (beginStep s), surfaced_iff,
    fun s t a hstep hreply =>
      (hostReply_perform (nextAction s) t hstep a hreply).resolve_left nofun⟩

end Sys2Proof.Machine
end

section
/-! Words written out, the reserved host word, and reset (95_test_vectors.md sections 3 and 10, 60_exceptions.md R317,
70_reset_and_hazards.md R340, R341). -/

namespace Sys2Proof

/-- Settles O4: the words are closed, so the decoders run on them. -/
theorem writtenWordsDecode : Obligations.WrittenWordsDecode := ⟨rfl, rfl, rfl, rfl, rfl⟩

/-- The operation codes from 5 on are reserved (30_encoding.md R110). -/
theorem decodeHop_reserved {w : BitVec 36} (hw : 5 ≤ w.toNat / 2 ^ 32) :
    decodeHop w = .error (.reservedOp (w.extractLsb' 32 4)) := by
  have hop : (w.extractLsb' 32 4).toNat = w.toNat / 2 ^ 32 := by
    rw [BitVec.extractLsb'_toNat, Nat.shiftRight_eq_div_pow, Nat.mod_eq_of_lt]
    have := w.isLt
    omega
  have hne : ∀ k : BitVec 4, k.toNat < 5 → (w.extractLsb' 32 4 == k) = false := by
    intro k hk
    rw [beq_eq_false_iff_ne]
    rintro rfl
    omega
  simp only [decodeHop, hne 0 (by decide), hne 1 (by decide), hne 2 (by decide), hne 3 (by decide),
    hne 4 (by decide), Bool.false_eq_true, if_false]

end Sys2Proof

namespace Sys2Proof.Machine

theorem hostOp_reserved {w : BitVec 36} (hw : 5 ≤ w.toNat / 2 ^ 32) (s : State) :
    hostOp w s = .next (refuse .badRequest s) := by
  rw [hostOp, decodeHop_reserved hw]

/-- Settles O33: the word decodes to no operation, and the refusal is one event and the answer. -/
theorem reservedHostWordIsRefused : Obligations.ReservedHostWordIsRefused := by
  intro s w r hsched hw
  have hstep : step s = .next (refuse .badRequest (beginStep s)) :=
    (step_of_sched hsched).trans (hostOp_reserved hw (beginStep s))
  rw [hstep, beginStep_of_sched hsched, refuse_eq, Error.code, Action.turn]

/-- Settles O52: the table is `State.resetWith` field by field, an empty dedup table reading as none for every data
number; the reset input takes the configuration and what it keeps from the state before it. -/
theorem resetValues : Obligations.ResetValues := by
  refine ⟨fun c => ?_, fun s r hsched => ?_⟩
  · refine ⟨rfl, rfl, rfl, rfl, rfl, rfl, rfl, rfl, rfl, rfl, rfl, rfl, rfl, rfl, rfl, rfl, rfl, rfl, rfl, rfl,
      fun dn => rfl, rfl, rfl, rfl, rfl, rfl, rfl, rfl, rfl⟩
  · have hstep : step s = .next (rst (beginStep s)) := step_of_sched hsched
    rw [hstep, beginStep_of_sched hsched, rst]

end Sys2Proof.Machine
end
